-- ==== Sys2Proof/Word.lean ====
section
/-! DEFINITION. The word types of the BX412: what the manual treats as bits, and its numberings. -/

namespace Sys2Proof

/-- A byte of a carrier frame or of the retirement store. -/
abbrev Byte := BitVec 8

/-- A supervision nibble. -/
abbrev Nibble := BitVec 4

/-- A word of the shelf bus without its parity bits (00_scope.md, "Words and bits"). -/
abbrev Word := BitVec 16

/-- A 12-bit word: supervision in bits 11 to 8, sample code in bits 7 to 0 (R174). -/
abbrev Pattern := BitVec 12

/-- A word address of the shelf store, 18 bits (R1). -/
abbrev Addr := BitVec 18

/-- A channel number, 0 to 2047. -/
abbrev Channel := Fin 2048

/-- A slot number, 0 to 1023. -/
abbrev SlotNo := Fin 1024

/-- A context number, 0 to 63. -/
abbrev CtxNo := Fin 64

/-- A lag in frames, 0 to 15. -/
abbrev Lag := Fin 16

/-- Sparse data by key: a list of keys and values, kept in ascending order of the key by `Assoc.put`. -/
abbrev Assoc (κ α : Type) := List (κ × α)

end Sys2Proof
end

