-- ==== Sys2Proof/Syntax.lean ====
section
/-! DEFINITION. The commands: one constructor of `Instr` for each row of spec/opcode_table.json, with its operands. -/

namespace Sys2Proof

/-- A word on the shelf bus: 16 data bits and two byte-parity bits (R174). -/
structure BusWord where
  /-- bits 15 to 0 -/
  data : Word
  /-- parity bit of bits 15 to 8 -/
  upper : Bool
  /-- parity bit of bits 7 to 0 -/
  lower : Bool
deriving DecidableEq, Repr

/-- The two masters (chapter 1.1). -/
inductive Master where
  | engine
  | controller
deriving DecidableEq, Repr

/-- The direction of an access, with the word the master writes, or the word the store gives to the read (log 5). -/
inductive BusOp where
  | write (w : BusWord)
  | read (fromStore : BusWord)
deriving DecidableEq, Repr

/-- One access taken at the shelf-side port (R1). -/
structure Access where
  master : Master
  addr : Addr
  op : BusOp
deriving DecidableEq, Repr

/-- How a part reset is made (R167). -/
inductive ResetCause where
  | powerOn
  | rst
deriving DecidableEq, Repr

/-- A part reset, and how many line events of the transfer that it cuts off came before it (R150). -/
structure PartReset where
  cause : ResetCause
  place : Nat
deriving DecidableEq, Repr

/-- The orders that the spec leaves open at a frame boundary, as they are taken at this boundary (log 2). -/
structure BoundaryOrder where
  /-- R28, R61: proof claims made in the ending frame are taken before the boundary, not after it. -/
  claimsFirst : Bool
  /-- R50: contexts are assigned before the hand-backs of this boundary and before SN's test. -/
  assignFirst : Bool
  /-- R118, R100: a carrier loss is taken before the frame is built and the fibre words are chosen. -/
  lossFirst : Bool
  /-- R71, R91: SN makes a queued notice outstanding before the frame is built. -/
  noticeFirst : Bool
  /-- R68: the damaged capture of an open pairing is taken before the frame is built. -/
  captureFirst : Bool
deriving DecidableEq, Repr

/-- The store's answer to a poll in stage POLL (R146). `acked` carries the bits of the record that the programming
left wrong, most significant byte first: zero when the page was programmed as sent (log 7). -/
inductive PollAnswer where
  | noAck
  | acked (wrong : BitVec 64)
deriving DecidableEq, Repr

/-- What SC takes as a missing acknowledge (R141). -/
inductive AckFault where
  | byteNotAcknowledged
  | clockHeldLow
  | dataHeldLow
deriving DecidableEq, Repr

/-- A missing acknowledge, and how many line events of its transfer came before it (R141, R145). -/
structure MissingAck where
  cause : AckFault
  place : Nat
deriving DecidableEq, Repr

/-- The commands. -/
inductive Instr where
  /-- PART_RESET (R167) -/
  | partReset (reset : PartReset)
  /-- RESET_END (R167) -/
  | resetEnd
  /-- FMARK (R19, R21): `time` is the time since the last boundary, or since the end of reset before the first, in half
  microseconds (log 3). -/
  | fmark (time : Nat) (order : BoundaryOrder)
  /-- HOLDOVER_ENTRY (R20) -/
  | holdoverEntry (order : BoundaryOrder)
  /-- HOLDOVER_BOUNDARY (R20) -/
  | holdoverBoundary (order : BoundaryOrder)
  /-- CONTEXT_ASSIGN (R50) -/
  | contextAssign
  /-- NOTICE_OUTSTANDING (R91) -/
  | noticeOutstanding
  /-- JOIN_TIMEOUT (R52) -/
  | joinTimeout (c : Channel) (k : CtxNo)
  /-- RETRY_GAP_END (R98) -/
  | retryGapEnd (c : Channel) (k : CtxNo)
  /-- BAR_CLOCK_EXPIRY (R87) -/
  | barClockExpiry (n : SlotNo)
  /-- CUT_DUE (R99) -/
  | cutDue (c : Channel) (n : SlotNo)
  /-- FOLLOW_CUT (R104) -/
  | followCut (c : Channel) (n : SlotNo)
  /-- GUARD_END (R113) -/
  | guardEnd (c : Channel)
  /-- SLOT_SILENT (R117) -/
  | slotSilent (c : Channel)
  /-- LINK_DOWN (R81) -/
  | linkDown
  /-- HUNT_LOSS (R80) -/
  | huntLoss
  /-- LINK_UP (R78) -/
  | linkUp
  /-- ORPHAN_TEST (R106) -/
  | orphanTest (n : SlotNo)
  /-- PEER_SHADOW (R105) -/
  | peerShadow (n : SlotNo)
  /-- PROOF_SUCCESS (R57) -/
  | proofSuccess (c : Channel) (k : CtxNo) (lag : Lag)
  /-- PROOF_FAILURE (R58) -/
  | proofFailure (c : Channel) (k : CtxNo)
  /-- DEMOTION (R60) -/
  | demotion (c : Channel) (k : CtxNo)
  /-- CUT_FAILED (R96) -/
  | cutFailed (c : Channel) (n : SlotNo)
  /-- JOIN_FAILED (R95) -/
  | joinFailed (c : Channel)
  /-- FRAME_SENT (R92) -/
  | frameSent
  /-- NOTICE_EXPIRY (R92) -/
  | noticeExpiry (number : BitVec 4)
  /-- INCOMING_SAMPLE_WRITE (R6): an ENGINE write. -/
  | incomingSampleWrite (addr : Addr) (w : BusWord)
  /-- ROUTE_READ (R10): an ENGINE read. -/
  | routeRead (addr : Addr) (fromStore : BusWord)
  /-- SAMPLE_READ (R12): an ENGINE read. -/
  | sampleRead (addr : Addr) (fromStore : BusWord)
  /-- PLAIN_ACCESS (R5): an access of either master in either direction. -/
  | plainAccess (a : Access)
  /-- ENROL (R155): a D0 write with code 1; `low` is the word below its code. -/
  | enrol (addr : Addr) (low : BitVec 12) (upper lower : Bool)
  /-- CUT (R156): a D0 write with code 2. -/
  | cutChannel (addr : Addr) (low : BitVec 12) (upper lower : Bool)
  /-- RETIRE (R156): a D0 write with code 3. -/
  | retireChannel (addr : Addr) (low : BitVec 12) (upper lower : Bool)
  /-- RECALL (R157): a D0 write with code 4. -/
  | recallChannel (addr : Addr) (low : BitVec 12) (upper lower : Bool)
  /-- WITHDRAW (R157): a D0 write with code 5. -/
  | withdrawChannel (addr : Addr) (low : BitVec 12) (upper lower : Bool)
  /-- INSPECT (R158): a D0 write with code 6. -/
  | inspect (addr : Addr) (low : BitVec 12) (upper lower : Bool)
  /-- SLOTVIEW (R159): a D0 write with code 7. -/
  | slotview (addr : Addr) (low : BitVec 12) (upper lower : Bool)
  /-- SET (R161): a D0 write with code 8. -/
  | setParameter (addr : Addr) (low : BitVec 12) (upper lower : Bool)
  /-- ABANDON (R162): a D0 write with code 9. -/
  | abandon (addr : Addr) (low : BitVec 12) (upper lower : Bool)
  /-- UNKNOWN_DIRECTIVE_CODE (R154): a D0 write with a code outside 1 to 9. -/
  | unknownDirectiveCode (addr : Addr) (code : BitVec 4) (low : BitVec 12) (upper lower : Bool)
  /-- DIRECTIVE_RUN (R154) -/
  | directiveRun
  /-- PARAMETER_LATCH_WRITE (R152): a CONTROLLER write. -/
  | parameterLatchWrite (addr : Addr) (w : BusWord)
  /-- ATTENTION_MASK_WRITE (R152): a CONTROLLER write. -/
  | attentionMaskWrite (addr : Addr) (w : BusWord)
  /-- DIRECTIVE_WRITE_OTHER (R152): a CONTROLLER write. -/
  | directiveWriteOther (addr : Addr) (w : BusWord)
  /-- RP0_READ (R163): a CONTROLLER read. -/
  | rp0Read (addr : Addr) (fromStore : BusWord)
  /-- RP6_READ (R160): a CONTROLLER read. -/
  | rp6Read (addr : Addr) (fromStore : BusWord)
  /-- RP7_READ (R164): a CONTROLLER read. -/
  | rp7Read (addr : Addr) (fromStore : BusWord)
  /-- RP8_READ (R164): a CONTROLLER read. -/
  | rp8Read (addr : Addr) (fromStore : BusWord)
  /-- FRAME_ARRIVAL (R72): the bytes of one whole unit. -/
  | frameArrival (bytes : List Byte)
  /-- STORE_WRITE_START (R144) -/
  | storeWriteStart
  /-- PAGE_WRITE_END (R145) -/
  | pageWriteEnd
  /-- STORE_POLL (R146) -/
  | storePoll (answer : PollAnswer)
  /-- POLL_TIMEOUT (R146) -/
  | pollTimeout
  /-- STORE_VERIFY (R147): `disturbed` marks the bits of the read-back that the line disturbed (log 7). -/
  | storeVerify (disturbed : BitVec 64)
  /-- MISSING_ACK (R141, R145) -/
  | missingAck (fault : MissingAck)
  /-- REINSTATEMENT_RETRY (R148) -/
  | reinstatementRetry
  /-- LOADER_POLL (R168) -/
  | loaderPoll (acked : Bool)
  /-- LOAD_POLL_TIMEOUT (R168) -/
  | loadPollTimeout
  /-- HEADER_READ (R169) -/
  | headerRead
  /-- RECORD_TRANSFER (R170) -/
  | recordTransfer
deriving DecidableEq, Repr

end Sys2Proof
end

