-- ==== Sys2Proof/Config.lean ====
section
/-! DEFINITION. What is fixed for the machine, and the values the spec leaves open. -/

namespace Sys2Proof.Config

/-- FREE VALUE (log 10). The notice number of a header whose notice kind is NONE: R176 gives bytes 7 to 11 of
such a header and is silent on bits 3 to 0 of byte 6. -/
opaque idleNoticeNumber : Nat → BitVec 4

/-- FREE VALUE (log 8). The bytes left in a record whose programming lost its supply (R150: "damaged"). -/
opaque damagedByte : Nat → Byte

/-- FREE VALUE (log 9). A 12-bit word a rule calls for in a state no run reaches, where the record or context that
should hold it does not. -/
opaque absentPattern : Nat → Pattern

/-- FREE VALUE (log 9). A label a rule calls for in a state no run reaches, where the record does not hold one. -/
opaque absentLabel : Nat → Word

/-- FREE VALUE (log 9). Whether a part without an own role, which no run makes RUNNING, sends FOLLOW in its frames. -/
opaque absentRoleIsFollow : Nat → Bool

/-- 62.5 microseconds in half microseconds: a mark that comes sooner is a runt (R19, R21). -/
def runtLimit : Nat := 125

/-- 187.5 microseconds in half microseconds (R20). -/
def holdoverLimit : Nat := 375

/-- 125 microseconds in half microseconds (R20). -/
def holdoverPeriod : Nat := 250

/-- Boundaries (or counts) without a usable frame that end UP and HUNTING (R80, R81). -/
def lossLimit : Nat := 16

/-- Frames of a run that bring the link UP (R78). -/
def huntLimit : Nat := 3

/-- Active frames seen at which proof fails (R58). -/
def proofLimit : Nat := 4096

/-- Mismatches in a row that demote (R60). -/
def streakLimit : Nat := 4

/-- JOIN attempts at which the join fails (R95). -/
def joinLimit : Nat := 8

/-- CUT attempts at which the cut fails (R96). -/
def cutLimit : Nat := 3

/-- Frames of the retry gap after NOT_READY (R98). -/
def retryGap : Nat := 800

/-- Records of one kind in a row that set the follow-due and peer-shadow marks (R104, R105). -/
def runLimit : Nat := 8

/-- Boundaries of PAUSE between reinstatement attempts (R148). -/
def pauseFrames : Nat := 160

/-- Events the event queue holds (R164). -/
def eventCapacity : Nat := 32

/-- Requests the store queue holds (R143). -/
def storeCapacity : Nat := 16

/-- LEAVE requests the notice queue holds (R90). -/
def leaveCapacity : Nat := 32

/-- Channels that may be outside COPPER (R24). -/
def channelBound : Nat := 1024

/-- The largest value of a repeat count (R115). -/
def repeatMax : Nat := 64

/-- What a byte of the retirement store that nothing has written reads as. DESIGN CHOICE (log 6). -/
def unwrittenByte : Byte := 0xFF#8

/-- How many due steps `settle` takes at most. DESIGN CHOICE (log 20). -/
def settleBound : Nat := 65536

end Sys2Proof.Config
end

