-- ==== Sys2Proof/Machine/State.lean ====
section
/-! DEFINITION. The state of the part, block by block, as plain data, and its value right after a part reset. -/

namespace Sys2Proof.Machine

/-! ## Outcomes other than a next state -/

/-- No rule of the spec stops the part, so no step ends in a fault. -/
inductive Fault
deriving DecidableEq, Repr

/-- Why a command may have no meaning. -/
inductive Refusal where
  /-- Raised by an arm of `exec` whose command has no meaning yet. Safe: the machine stops. -/
  | notModelled (mnemonic : String)
deriving DecidableEq, Repr

/-! ## Part and frame timer -/

/-- The part states (R167). -/
inductive PartState where
  | loading
  | bypass
  | running
deriving DecidableEq, Repr

/-- The mark states (chapter 1.8). -/
inductive MarkState where
  | locked
  | holdover
deriving DecidableEq, Repr

/-- FT's state (R18). -/
structure FrameTimer where
  frameNumber : BitVec 12
  mark : MarkState
  /-- holdover timer: half microseconds since the last boundary, or since the end of reset -/
  timer : Nat
  /-- a boundary has been made since the part reset -/
  boundarySeen : Bool
deriving DecidableEq, Repr

/-! ## Routes and the bus interposer -/

/-- The IN setting (chapter 1.4). -/
inductive InSetting where
  | pass
  | fibre
  | idle
deriving DecidableEq, Repr

/-- The OUT setting (R13). -/
inductive OutSetting where
  | pass
  | idle
deriving DecidableEq, Repr

/-- The TAP setting (chapter 2.2). -/
inductive Tap where
  | none
  | shadow
  | live
deriving DecidableEq, Repr

/-- A route triple. -/
structure Route where
  inn : InSetting
  out : OutSetting
  tap : Tap
deriving DecidableEq, Repr

/-- The triple PASS, PASS, NONE. -/
def Route.copper : Route := ⟨.pass, .pass, .none⟩

/-- The region bases (R2). -/
structure Bases where
  sample : Addr
  route : Addr
  directive : Addr
deriving DecidableEq, Repr

/-- An OPEN pairing register (R9). -/
structure Pairing where
  channel : Channel
  supervision : Nibble
  wanted : Bool
  damaged : Bool
deriving DecidableEq, Repr

/-- A fibre word register (R115). -/
structure FibreRegister where
  frameWord : Pattern
  carriedWord : Pattern
  lastGood : Pattern
  repeats : Nat
  silent : Bool
  /-- model's own (log 22): the guard has just reached 0 and the GUARD_END step is due -/
  guardEnding : Bool
deriving DecidableEq, Repr

/-- BI's state. -/
structure BusInterposer where
  bases : Option Bases
  pairing : Option Pairing
  registers : Assoc Channel FibreRegister
deriving DecidableEq, Repr

/-! ## The channel map -/

/-- The thirteen phases (chapter 2.2). -/
inductive Phase where
  | copper
  | enrolled
  | joining
  | shadow
  | proven
  | cutting
  | carried
  | retiring
  | retired
  | recalling
  | stranded
  | fallen
  | leaving
deriving DecidableEq, Repr

/-- Why a channel is STRANDED (R39). -/
inductive StrandingCause where
  | link
  | silence
  | load
deriving DecidableEq, Repr

/-- The phase a RECALL started from (R38). -/
inductive RecallOrigin where
  | retired
  | stranded
deriving DecidableEq, Repr

/-- A channel record (R22). -/
structure ChannelRecord where
  phase : Phase
  label : Option Word
  idle : Option Pattern
  slot : Option SlotNo
  context : Option CtxNo
  lag : Lag
  collapsed : Bool
  cause : Option StrandingCause
  origin : Option RecallOrigin
  pending : Route
  active : Route
deriving DecidableEq, Repr

/-- The channel record after a part reset (R44). -/
def ChannelRecord.reset : ChannelRecord where
  phase := .copper
  label := none
  idle := none
  slot := none
  context := none
  lag := 0
  collapsed := false
  cause := none
  origin := none
  pending := .copper
  active := .copper

/-! ## The context pool -/

/-- An owned context (R47). A delay-line entry that is `none` is HOLD. Newest entries come first. -/
structure Context where
  owner : Channel
  delay : List (Option Pattern)
  runs : List Nat
  activeSeen : Nat
  lastCopper : Option Pattern
  streak : Nat
  joinClock : Nat
  joinAttempts : Nat
  cutAttempts : Nat
  retryGap : Nat
  guardRemaining : Nat
  lastSubstituted : Option Pattern
  window : List Bool
deriving DecidableEq, Repr

/-- The starting values of R47. -/
def Context.fresh (c : Channel) : Context where
  owner := c
  delay := List.replicate 16 none
  runs := List.replicate 16 0
  activeSeen := 0
  lastCopper := none
  streak := 0
  joinClock := 0
  joinAttempts := 0
  cutAttempts := 0
  retryGap := 0
  guardRemaining := 0
  lastSubstituted := none
  window := List.replicate 32 false

/-- CP's state: the owned contexts (a context not listed is free) and the proof queue. -/
structure ContextPool where
  contexts : Assoc CtxNo Context
  queue : List Channel
deriving DecidableEq, Repr

/-! ## Notices and the carrier link -/

/-- The two roles. -/
inductive Role where
  | lead
  | follow
deriving DecidableEq, Repr

/-- The link states (chapter 4.3). -/
inductive LinkState where
  | dark
  | hunting
  | up
deriving DecidableEq, Repr

/-- The kinds of request and notice (R90). -/
inductive NoticeKind where
  | join
  | cut
  | leave
deriving DecidableEq, Repr

/-- The decline reasons (R176); `other` is a reason byte that is 0 or above 6. -/
inductive DeclineReason where
  | notReady
  | slotBusy
  | unknown
  | notProven
  | crossed
  | retired
  | other
deriving DecidableEq, Repr

/-- A reply. -/
inductive Reply where
  | agree
  | decline (reason : DeclineReason)
deriving DecidableEq, Repr

/-- The notice field of a header (R71); `kind` absent is NONE. -/
structure NoticeField where
  kind : Option NoticeKind
  number : BitVec 4
  slot : SlotNo
  label : Word
  countdown : Byte
deriving DecidableEq, Repr

/-- The reply field of a header (R71). -/
structure ReplyField where
  number : BitVec 4
  reply : Reply
deriving DecidableEq, Repr

/-- A slot record as the transmitter sends it (R70). -/
structure SlotRecord where
  slot : SlotNo
  word : Pattern
  live : Bool
  damaged : Bool
  last : Bool
deriving DecidableEq, Repr

/-- A carrier frame as the transmitter builds it (R67). -/
structure CarrierFrame where
  number : BitVec 12
  role : Role
  notice : NoticeField
  reply : Option ReplyField
  records : List SlotRecord
deriving DecidableEq, Repr

/-- A slot record as the receiver reads it: the record and whether its check holds (R75, R176). -/
structure ReceivedRecord where
  fields : SlotRecord
  checkGood : Bool
deriving DecidableEq, Repr

/-- A valid frame as the receiver reads it (R74). -/
structure ReceivedFrame where
  number : BitVec 12
  role : Role
  notice : NoticeField
  reply : Option ReplyField
  records : List ReceivedRecord
deriving DecidableEq, Repr

/-- A capture for the frame in progress (R14, R68). -/
structure Capture where
  word : Pattern
  damaged : Bool
deriving DecidableEq, Repr

/-- The kind of an arrival (R75). -/
inductive ArrivalKind where
  | shadow
  | live
  | unknown
deriving DecidableEq, Repr

/-- An arrival that is present (R75). -/
structure Arrival where
  word : Pattern
  damaged : Bool
  kind : ArrivalKind
deriving DecidableEq, Repr

/-- CL's state: transmitter, receiver and link monitor. -/
structure CarrierLink where
  role : Option Role
  captures : Assoc Channel Capture
  sending : Option CarrierFrame
  /-- reception mark: set is GOOD -/
  markGood : Bool
  link : LinkState
  lossCount : Nat
  huntCount : Nat
  lastNumber : Option (BitVec 12)
  peerRole : Option Role
  clash : Bool
  /-- model's own (log 15, log 22): the frame whose LINK_UP step is due -/
  inHand : Option ReceivedFrame
deriving DecidableEq, Repr

/-! ## The slot table and notice unit -/

/-- The slot states (R85). -/
inductive SlotState where
  | free
  | reserved
  | held
  | releasing
  | barred
deriving DecidableEq, Repr

/-- A slot entry (R85). -/
structure SlotEntry where
  state : SlotState
  channel : Option Channel
  barClock : Nat
  latch : Option Arrival
  visible : Option Arrival
  holdCount : Nat
  orphanCount : Nat
  liveRun : Nat
  shadowRun : Nat
  peerAhead : Bool
  peerShadow : Bool
  followDue : Bool
deriving DecidableEq, Repr

/-- The slot entry after a part reset (R85). -/
def SlotEntry.reset : SlotEntry where
  state := .free
  channel := none
  barClock := 0
  latch := none
  visible := none
  holdCount := 0
  orphanCount := 0
  liveRun := 0
  shadowRun := 0
  peerAhead := false
  peerShadow := false
  followDue := false

/-- A request of the notice queue (R90). -/
structure Request where
  kind : NoticeKind
  channel : Channel
deriving DecidableEq, Repr

/-- The outstanding own notice (R91), with what R96 needs of its first frame. -/
structure Outstanding where
  kind : NoticeKind
  number : BitVec 4
  channel : Channel
  slot : SlotNo
  label : Word
  countdown : Nat
  age : Nat
  /-- the countdown in the first frame that carried the notice, and the boundaries taken since the one at which that
  frame was built; absent before the first frame -/
  firstSent : Option (Nat × Nat)
  /-- model's own (log 22): a NOTICE_EXPIRY step is due -/
  expired : Bool
deriving DecidableEq, Repr

/-- A cut schedule (R99). -/
structure Schedule where
  slot : SlotNo
  toGo : Nat
deriving DecidableEq, Repr

/-- The record of the peer's current notice and the reply kept for it (R100). -/
structure PeerNotice where
  kind : NoticeKind
  number : BitVec 4
  slot : SlotNo
  label : Word
  reply : Reply
deriving DecidableEq, Repr

/-- SN's state. -/
structure SlotTable where
  slots : Assoc SlotNo SlotEntry
  queue : List Request
  outstanding : Option Outstanding
  nextNumber : BitVec 4
  schedules : Assoc Channel Schedule
  peer : Option PeerNotice
deriving DecidableEq, Repr

/-! ## The directive unit -/

/-- A parameter latch with its doubt mark (R152). -/
structure Latch where
  value : Word
  doubt : Bool
deriving DecidableEq, Repr

/-- The latches D1 to D4. -/
structure Latches where
  d1 : Latch
  d2 : Latch
  d3 : Latch
  d4 : Latch
deriving DecidableEq, Repr

/-- The outcomes of a directive (R154). -/
inductive DirectiveOutcome where
  | done
  | phase
  | range
  | parity
  | full
  | link
  | label
  | code
deriving DecidableEq, Repr

/-- The results RP1 to RP6. -/
structure Results where
  rp1 : Word
  rp2 : Word
  rp3 : Word
  rp4 : Word
  rp5 : Word
  rp6 : Word
deriving DecidableEq, Repr

/-- Results that all read 0. -/
def Results.zero : Results := ⟨0, 0, 0, 0, 0, 0⟩

/-- The two kinds of step mode (R160). -/
inductive StepKind where
  | inspect
  | slotview
deriving DecidableEq, Repr

/-- Step mode while it is on: its kind, the last number shown, and the tag of the directive that turned it on. -/
structure StepMode where
  kind : StepKind
  last : Nat
  tag : BitVec 6
deriving DecidableEq, Repr

/-- The directive in progress (R153), or a step with its number (R160). -/
structure Directive where
  code : BitVec 4
  step : Bool
  tag : BitVec 6
  copies : Latches
  /-- the kind and number of a step; absent for a directive started by a D0 write -/
  stepOf : Option (StepKind × Nat)
deriving DecidableEq, Repr

/-- The event kinds (R164), in the order of their numbers 1 to 29. -/
inductive EventKind where
  | proven
  | proveFailed
  | demoted
  | joined
  | joinFailed
  | joinTimeout
  | cutDone
  | cutFailed
  | followed
  | collapsed
  | retired
  | recalled
  | storeFailed
  | left
  | peerLeft
  | orphaned
  | fallen
  | stranded
  | unstranded
  | slotSilent
  | peerAhead
  | peerShadow
  | linkUp
  | linkDown
  | roleClash
  | markLost
  | markRestored
  | recordSkipped
  | loadDone
deriving DecidableEq, Repr

/-- An event (chapter 9.4). -/
structure Event where
  kind : EventKind
  channel : Channel
deriving DecidableEq, Repr

/-- DU's state (the table at the head of chapter 9). `mask` has the bit order of R175: EVENTS, LOST, LINK, DONE. -/
structure DirectiveUnit where
  latches : Latches
  mask : BitVec 4
  inProgress : Option Directive
  overrun : Bool
  parity : Bool
  outcome : DirectiveOutcome
  tag : BitVec 6
  results : Results
  stepMode : Option StepMode
  events : List Event
  lost : Bool
  doneSource : Bool
deriving DecidableEq, Repr

/-- DU after a part reset (R166). -/
def DirectiveUnit.reset : DirectiveUnit where
  latches := ⟨⟨0, false⟩, ⟨0, false⟩, ⟨0, false⟩, ⟨0, false⟩⟩
  mask := 0
  inProgress := none
  overrun := false
  parity := false
  outcome := .done
  tag := 0
  results := .zero
  stepMode := none
  events := []
  lost := false
  doneSource := false

/-! ## The store controller and the retirement store -/

/-- The runtime parameter set (R173). -/
structure Params where
  proveRun : Nat
  quietLimit : Nat
  guardFrames : Nat
  noticeLead : Nat
  noticeWait : Nat
  joinWait : Nat
  orphanFrames : Nat
  holdLimit : Nat
  idle : Pattern
deriving DecidableEq, Repr

/-- The runtime parameter set after a part reset (R173). -/
def Params.reset : Params where
  proveRun := 64
  quietLimit := 2
  guardFrames := 16
  noticeLead := 24
  noticeWait := 4000
  joinWait := 16000
  orphanFrames := 800
  holdLimit := 8
  idle := 0x1D5#12

/-- A good header as the loader holds it (R169, R177). -/
structure Header where
  role : Role
  bases : Bases
  params : Params
deriving DecidableEq, Repr

/-- What the loader does next (R168 to R170); `done` outside LOADING. -/
inductive LoadStage where
  | poll
  | header
  | records (transfer : Nat)
  | done
deriving DecidableEq, Repr

/-- The kinds of store request (R143). -/
inductive WriteKind where
  | retire
  | void
deriving DecidableEq, Repr

/-- A store request (R143). -/
structure WriteRequest where
  kind : WriteKind
  channel : Channel
  slot : SlotNo
  label : Word
  idle : Pattern
deriving DecidableEq, Repr

/-- The purpose of a write (R144). -/
inductive Purpose where
  | target
  | reinstatement
deriving DecidableEq, Repr

/-- The stage of a write (R144), with the boundaries remaining in PAUSE. -/
inductive Stage where
  | program
  | poll
  | verify
  | pause (remaining : Nat)
deriving DecidableEq, Repr

/-- The write in flight (R144). -/
structure Flight where
  request : WriteRequest
  purpose : Purpose
  stage : Stage
deriving DecidableEq, Repr

/-- SC's state. -/
structure StoreController where
  params : Params
  queue : List WriteRequest
  flight : Option Flight
  fault : Bool
  loader : LoadStage
  header : Option Header
deriving DecidableEq, Repr

/-- SC after a part reset has ended (R143, R168, R173). -/
def StoreController.reset : StoreController where
  params := .reset
  queue := []
  flight := none
  fault := false
  loader := .poll
  header := none

/-- The bytes of the retirement store, in canonical form. -/
abbrev Memory := List Host.Cell

/-- The retirement store: its bytes, and the page it is programming (slot and eight bytes). -/
structure RetirementStore where
  cells : Memory
  programming : Option (SlotNo × List Byte)
deriving DecidableEq, Repr

/-! ## The ports -/

/-- What the part carries to the store-side port (R1). -/
inductive StoreAccess where
  | write (master : Master) (addr : Addr) (w : BusWord)
  | read (master : Master) (addr : Addr)
deriving DecidableEq, Repr

/-- What SC does on the I2C line (R141). -/
inductive LineEvent where
  | start
  | repeatedStart
  | stop
  | send (b : Byte)
  | receive (acknowledged : Bool)
  | releaseData
  | releaseClock
deriving DecidableEq, Repr

/-- The ports as last driven (log 14). -/
structure Ports where
  storeSide : Option StoreAccess
  returned : Option BusWord
  line : List LineEvent
deriving DecidableEq, Repr

/-! ## The part's own steps -/

/-- A step of the part's own that has come due (log 1). Each has a row of the table but two: `heard`, the heard claim of a
slot, which waits here only behind an earlier step (R89; log 25), and `passed`, no step but a mark: it stands behind the
proof claims that the boundary ending their frame has left due, which no later boundary leaves due (R25, R28; log 2). -/
inductive Due where
  | contextAssign
  | noticeOutstanding
  | joinTimeout (c : Channel) (k : CtxNo)
  | retryGapEnd (c : Channel) (k : CtxNo)
  | barClockExpiry (n : SlotNo)
  | cutDue (c : Channel) (n : SlotNo)
  | followCut (c : Channel) (n : SlotNo)
  | guardEnd (c : Channel)
  | slotSilent (c : Channel)
  | linkDown
  | huntLoss
  | linkUp
  | orphanTest (n : SlotNo)
  | peerShadow (n : SlotNo)
  | proofSuccess (c : Channel) (k : CtxNo) (lag : Lag)
  | proofFailure (c : Channel) (k : CtxNo)
  | demotion (c : Channel) (k : CtxNo)
  | cutFailed (c : Channel) (n : SlotNo)
  | joinFailed (c : Channel)
  | noticeExpiry (number : BitVec 4)
  | storeWriteStart
  | reinstatementRetry
  | heard (n : SlotNo)
  | passed
deriving DecidableEq, Repr

/-! ## The whole -/

/-- The state of the part. -/
structure State where
  part : PartState
  /-- RST is asserted, or the power-on reset lasts (R167) -/
  resetHeld : Bool
  ft : FrameTimer
  bi : BusInterposer
  /-- CM: the channel records that are not listed stand as after a part reset -/
  cm : Assoc Channel ChannelRecord
  cp : ContextPool
  cl : CarrierLink
  /-- SN: the slot entries that are not listed stand as after a part reset -/
  sn : SlotTable
  du : DirectiveUnit
  sc : StoreController
  store : RetirementStore
  ports : Ports
  /-- model's own (log 1): own steps due and not yet taken, in the order they came due -/
  due : List Due
  /-- model's own (log 8): how many free values have been used -/
  freeUsed : Nat
  /-- the commands that wait, first in first out -/
  pending : List Instr
deriving DecidableEq, Repr

/-- The part right after a part reset has ended: LOADING, the loader at its opening poll (R167, R168; log 11). -/
def State.reset : State where
  part := .loading
  resetHeld := false
  ft := ⟨0, .locked, 0, false⟩
  bi := ⟨none, none, []⟩
  cm := []
  cp := ⟨[], []⟩
  cl := ⟨none, [], none, false, .dark, 0, 0, none, none, false, none⟩
  sn := ⟨[], [], none, 0, [], none⟩
  du := .reset
  sc := .reset
  store := ⟨[], none⟩
  ports := ⟨none, none, []⟩
  due := []
  freeUsed := 0
  pending := []

end Sys2Proof.Machine
end

