-- ==== Sys2Proof/Machine/Operands.lean ====
section
/-! DEFINITION. The layouts of chapter 11: shelf-bus words and parity (R174), the directive word D0 (R175), carrier
frames (R176), and the retirement store (R177). -/

namespace Sys2Proof.Machine

/-! ## Shelf-bus words (R174) -/

/-- A byte holds an odd number of ones. -/
def oddOnes (b : Byte) : Bool :=
  [0, 1, 2, 3, 4, 5, 6, 7].foldl (fun a i => a ^^ b.getLsbD i) false

/-- The upper byte of a word. -/
def upperByte (w : Word) : Byte := w.extractLsb' 8 8

/-- The lower byte of a word. -/
def lowerByte (w : Word) : Byte := w.extractLsb' 0 8

/-- A word with both parity bits generated (R17, R174). -/
def freshParity (w : Word) : BusWord := ⟨w, oddOnes (upperByte w), oddOnes (lowerByte w)⟩

/-- Good parity: both bytes satisfy even parity (R17). -/
def parityGood (w : BusWord) : Bool :=
  (w.upper == oddOnes (upperByte w.data)) && (w.lower == oddOnes (lowerByte w.data))

/-- The sample code and supervision of a sample word. -/
def sampleOf (w : Word) : Pattern := w.extractLsb' 0 12

/-- The supervision nibble of a 12-bit word. -/
def supervisionOf (p : Pattern) : Nibble := p.extractLsb' 8 4

/-- The sample code of a 12-bit word. -/
def codeOf (p : Pattern) : Byte := p.extractLsb' 0 8

/-- A 12-bit word from its supervision and its sample code. -/
def pattern (supervision : Nibble) (code : Byte) : Pattern := supervision ++ code

/-- Substitution into a sample word: bits 11 to 0 are replaced, the line flags are kept. -/
def substituteSample (w : Word) (p : Pattern) : Word := w.extractLsb' 12 4 ++ p

/-- CONNECTED of a route entry. -/
def connected (w : Word) : Bool := w.getLsbD 11

/-- The outgoing supervision of a route entry. -/
def routeSupervision (w : Word) : Nibble := w.extractLsb' 12 4

/-- Substitution of the outgoing supervision of a route entry: bits 11 to 0 are kept. -/
def substituteSupervision (w : Word) (p : Pattern) : Word := supervisionOf p ++ w.extractLsb' 0 12

/-! ## The directive word D0 (R175) -/

/-- The word of a D0 write from its code and the bits below it. -/
def d0Word (code : BitVec 4) (low : BitVec 12) : Word := code ++ low

/-- The code of D0. -/
def d0Code (w : Word) : BitVec 4 := w.extractLsb' 12 4

/-- The STEP flag of D0. -/
def d0Step (w : Word) : Bool := w.getLsbD 11

/-- The tag of D0. -/
def d0Tag (w : Word) : BitVec 6 := w.extractLsb' 0 6

/-! ## Carrier frames (R176) -/

/-- One shift of the header check's register. -/
def crcShift (r : Word) : Word := if r.msb then (r <<< 1) ^^^ 0x1021#16 else r <<< 1

/-- One byte added to the header check's register. -/
def crcByte (r : Word) (b : Byte) : Word :=
  [0, 1, 2, 3, 4, 5, 6, 7].foldl (fun x _ => crcShift x) (r ^^^ (b ++ 0#8))

/-- The header check over bytes. -/
def crc (bytes : List Byte) : Word := bytes.foldl crcByte 0xFFFF#16

/-- The sum of bytes modulo 256. -/
def byteSum (bytes : List Byte) : Byte := bytes.foldl (· + ·) 0

/-- The two bytes of a word, most significant first. -/
def wordBytes (w : Word) : List Byte := [upperByte w, lowerByte w]

/-- A word from two bytes, most significant first. -/
def wordOf (hi lo : Byte) : Word := hi ++ lo

/-- One bit as a bit vector. -/
def bit (b : Bool) : BitVec 1 := BitVec.ofBool b

/-- The role bit: 0 for LEAD, 1 for FOLLOW. -/
def roleBit : Role → Bool
  | .lead => false
  | .follow => true

/-- The role of a role bit. -/
def roleOfBit (b : Bool) : Role := if b then .follow else .lead

/-- The notice kind field, also the outstanding kind of RP13. -/
def noticeKindBits : Option NoticeKind → BitVec 2
  | none => 0
  | some .join => 1
  | some .cut => 2
  | some .leave => 3

/-- The notice kind of a field. -/
def noticeKindOf (b : BitVec 2) : Option NoticeKind :=
  if b = 1#2 then some .join else if b = 2#2 then some .cut else if b = 3#2 then some .leave else none

/-- The decline reason byte. -/
def reasonByte : DeclineReason → Byte
  | .notReady => 1
  | .slotBusy => 2
  | .unknown => 3
  | .notProven => 4
  | .crossed => 5
  | .retired => 6
  | .other => 0

/-- The decline reason of a byte: 0 and every value above 6 is another reason. -/
def reasonOf (b : Byte) : DeclineReason :=
  if b = 1#8 then .notReady else if b = 2#8 then .slotBusy else if b = 3#8 then .unknown
  else if b = 4#8 then .notProven else if b = 5#8 then .crossed else if b = 6#8 then .retired else .other

/-- Header bytes 12 and 13. -/
def replyBytes : Option ReplyField → List Byte
  | none => [0, 0]
  | some ⟨number, .agree⟩ => [1#2 ++ 0#2 ++ number, 0]
  | some ⟨number, .decline reason⟩ => [2#2 ++ 0#2 ++ number, reasonByte reason]

/-- The reply field of header bytes 12 and 13: kinds 0 and 3 are NONE. -/
def replyOf (b12 b13 : Byte) : Option ReplyField :=
  let kind : BitVec 2 := b12.extractLsb' 6 2
  let number : BitVec 4 := b12.extractLsb' 0 4
  if kind = 1#2 then some ⟨number, .agree⟩
  else if kind = 2#2 then some ⟨number, .decline (reasonOf b13)⟩
  else none

/-- A slot number as the ten bits of a field. -/
def slotBits (n : SlotNo) : BitVec 10 := BitVec.ofNat 10 n.val

/-- The slot of a ten-bit field. -/
def slotOfBits (b : BitVec 10) : SlotNo := Fin.ofNat 1024 b.toNat

/-- Header bytes 0 to 13 of a carrier frame (R176). DESIGN CHOICE (log 33): R176 gives the bits that its layout does not
name no value; they are sent as 0. -/
def headerBody (f : CarrierFrame) : List Byte :=
  let count : BitVec 11 := BitVec.ofNat 11 f.records.length
  [0x3A#8, 0xC5#8,
   bit (roleBit f.role) ++ 0#3 ++ f.number.extractLsb' 8 4,
   f.number.extractLsb' 0 8,
   0#5 ++ count.extractLsb' 8 3,
   count.extractLsb' 0 8,
   noticeKindBits f.notice.kind ++ 0#2 ++ f.notice.number,
   0#6 ++ (slotBits f.notice.slot).extractLsb' 8 2,
   (slotBits f.notice.slot).extractLsb' 0 8] ++
  wordBytes f.notice.label ++ [f.notice.countdown] ++ replyBytes f.reply

/-- The five bytes of a slot record (R176). The bits that the layout does not name are sent as 0 (log 33). -/
def recordBytes (r : SlotRecord) : List Byte :=
  let body : List Byte :=
    [(slotBits r.slot).extractLsb' 2 8,
     (slotBits r.slot).extractLsb' 0 2 ++ bit r.live ++ bit r.damaged ++ bit r.last ++ 0#3,
     0#4 ++ supervisionOf r.word,
     codeOf r.word]
  body ++ [~~~(byteSum body)]

/-- The slot records one after another. -/
def recordsBytes : List SlotRecord → List Byte
  | [] => []
  | r :: t => recordBytes r ++ recordsBytes t

/-- The unit that a carrier frame is sent as. -/
def frameBytes (f : CarrierFrame) : List Byte :=
  headerBody f ++ wordBytes (crc (headerBody f)) ++ recordsBytes f.records

/-- A slot record from its five bytes. -/
def readRecord (b0 b1 b2 b3 b4 : Byte) : ReceivedRecord where
  fields := {
    slot := slotOfBits (b0 ++ b1.extractLsb' 6 2)
    word := pattern (b2.extractLsb' 0 4) b3
    live := b1.getLsbD 5
    damaged := b1.getLsbD 4
    last := b1.getLsbD 3 }
  checkGood := byteSum [b0, b1, b2, b3, b4] == 0xFF#8

/-- The records of a unit's bytes after the header; none when the bytes are no whole number of records. -/
def readRecords : List Byte → Option (List ReceivedRecord)
  | [] => some []
  | b0 :: b1 :: b2 :: b3 :: b4 :: rest =>
    (readRecords rest).map fun t => readRecord b0 b1 b2 b3 b4 :: t
  | _ => none

/-- LAST stands on the last record and on no other (R72). -/
def lastOnlyAtEnd : List ReceivedRecord → Bool
  | [] => true
  | [r] => r.fields.last
  | r :: t => !r.fields.last && lastOnlyAtEnd t

/-- The notice field of a header. -/
def readNotice (b6 b7 b8 b9 b10 b11 : Byte) : NoticeField where
  kind := noticeKindOf (b6.extractLsb' 6 2)
  number := b6.extractLsb' 0 4
  slot := slotOfBits (b7.extractLsb' 0 2 ++ b8)
  label := wordOf b9 b10
  countdown := b11

/-- A received unit, judged by R72: the frame it holds, or none when it is invalid. DESIGN CHOICE (log 33): the header
bits that R176 does not name are ignored. -/
def readFrame : List Byte → Option ReceivedFrame
  | b0 :: b1 :: b2 :: b3 :: b4 :: b5 :: b6 :: b7 :: b8 :: b9 :: b10 :: b11 :: b12 :: b13 :: b14 :: b15 :: rest =>
    let count := (b4.extractLsb' 0 3 ++ b5 : BitVec 11).toNat
    match readRecords rest with
    | none => none
    | some records =>
      if wordOf b0 b1 = 0x3AC5#16 ∧
          crc [b0, b1, b2, b3, b4, b5, b6, b7, b8, b9, b10, b11, b12, b13] = wordOf b14 b15 ∧
          count ≤ 1024 ∧ records.length = count ∧ lastOnlyAtEnd records = true then
        some {
          number := b2.extractLsb' 0 4 ++ b3
          role := roleOfBit (b2.getLsbD 7)
          notice := readNotice b6 b7 b8 b9 b10 b11
          reply := replyOf b12 b13
          records := records }
      else none
  | _ => none

/-! ## The retirement store (R177) -/

/-- The first byte of the record of a slot (R141). -/
def recordAddress (n : SlotNo) : Nat := 64 + 8 * n.val

/-- The low byte of a slot number. -/
def slotByte (n : SlotNo) : Byte := BitVec.ofNat 8 n.val

/-- The check byte of a record: with it, the record and the slot's low byte sum to 0 modulo 256 (R177). -/
def recordCheckByte (n : SlotNo) (body : List Byte) : Byte := 0 - (byteSum body + slotByte n)

/-- A record's check holds for its slot (R142). -/
def recordCheckGood (n : SlotNo) (bytes : List Byte) : Bool := byteSum bytes + slotByte n == 0#8

/-- The state byte of a RETIRED record. -/
def retiredByte : Byte := 0xA7#8

/-- The eight bytes of a record with a state byte, built from a request (R142). -/
def recordOf (state : Byte) (r : WriteRequest) : List Byte :=
  let body : List Byte :=
    state :: (wordBytes (BitVec.ofNat 16 r.channel.val) ++ wordBytes r.label ++ wordBytes (0#4 ++ r.idle))
  body ++ [recordCheckByte r.slot body]

/-- The RETIRED record of a request. -/
def retiredRecord (r : WriteRequest) : List Byte := recordOf retiredByte r

/-- The void record of a request. -/
def voidRecord (r : WriteRequest) : List Byte := recordOf 0#8 r

/-- The record a write serves, by the request's kind and the write's purpose (R144, R148). -/
def writtenRecord (r : WriteRequest) : Purpose → List Byte
  | .target => match r.kind with
    | .retire => retiredRecord r
    | .void => voidRecord r
  | .reinstatement => match r.kind with
    | .retire => voidRecord r
    | .void => retiredRecord r

/-- The eight bytes of 64 bits, most significant byte first. -/
def bytesOf64 (w : BitVec 64) : List Byte :=
  [w.extractLsb' 56 8, w.extractLsb' 48 8, w.extractLsb' 40 8, w.extractLsb' 32 8,
   w.extractLsb' 24 8, w.extractLsb' 16 8, w.extractLsb' 8 8, w.extractLsb' 0 8]

/-- Bytes with the marked bits inverted. -/
def invertBits (bytes : List Byte) (mask : BitVec 64) : List Byte :=
  List.zipWith (· ^^^ ·) bytes (bytesOf64 mask)

/-- What a valid RETIRED record says (R142). -/
structure RetiredFields where
  channel : Channel
  label : Word
  idle : Pattern
deriving DecidableEq, Repr

/-- A record judged by R142: the fields of a valid RETIRED record, or none when it is void. -/
def readRetired (n : SlotNo) : List Byte → Option RetiredFields
  | [b0, b1, b2, b3, b4, b5, b6, b7] =>
    let channel := (wordOf b1 b2).toNat
    if b0 = retiredByte ∧ recordCheckGood n [b0, b1, b2, b3, b4, b5, b6, b7] = true ∧ channel ≤ 2047 then
      some ⟨Fin.ofNat 2048 channel, wordOf b3 b4, sampleOf (wordOf b5 b6)⟩
    else none
  | _ => none

/-- The value of a three-byte field. -/
def triple (a b c : Byte) : Nat := a.toNat * 65536 + b.toNat * 256 + c.toNat

/-- Two regions share no word. -/
def disjoint (base₁ extent₁ base₂ extent₂ : Nat) : Bool := base₁ + extent₁ ≤ base₂ || base₂ + extent₂ ≤ base₁

/-- Every region lies below word 262144, and no two share a word (R169, tests 4 and 5). -/
def basesGood (s t a : Nat) : Bool :=
  s + 4095 < 262144 && t + 2047 < 262144 && a + 23 < 262144 &&
  disjoint s 4096 t 2048 && disjoint s 4096 a 24 && disjoint t 2048 a 24

/-- Every parameter lies in its range (R161, R169, test 6). -/
def paramsGood (p : Params) : Bool :=
  8 ≤ p.proveRun && p.proveRun ≤ 255 && p.quietLimit ≤ 31 && p.guardFrames ≤ 63 &&
  8 ≤ p.noticeLead && p.noticeLead ≤ 200 &&
  100 ≤ p.noticeWait && p.noticeWait ≤ 65535 && 100 ≤ p.joinWait && p.joinWait ≤ 65535 &&
  100 ≤ p.orphanFrames && p.orphanFrames ≤ 65535 && 1 ≤ p.holdLimit && p.holdLimit ≤ 63

/-- The header's bytes 11 to 23 as a parameter set. -/
def headerParams (bs : List Byte) : Params :=
  let at' (i : Nat) : Byte := bs.getD i 0
  let two (i : Nat) : Nat := (wordOf (at' i) (at' (i + 1))).toNat
  { proveRun := (at' 13).toNat
    quietLimit := (at' 14).toNat
    guardFrames := (at' 15).toNat
    noticeLead := (at' 16).toNat
    noticeWait := two 17
    joinWait := two 19
    orphanFrames := two 21
    holdLimit := (at' 23).toNat
    idle := sampleOf (wordOf (at' 11) (at' 12)) }

/-- The 64 header bytes, judged by R169: a good header, or none when a test fails. -/
def readHeader (bs : List Byte) : Option Header :=
  let at' (i : Nat) : Byte := bs.getD i 0
  let s := triple (at' 2) (at' 3) (at' 4)
  let t := triple (at' 5) (at' 6) (at' 7)
  let a := triple (at' 8) (at' 9) (at' 10)
  let params := headerParams bs
  if at' 0 = 0x5C#8 ∧ byteSum bs = 0#8 ∧ (at' 1 = 0#8 ∨ at' 1 = 1#8) ∧ basesGood s t a = true ∧
      paramsGood params = true ∧ (at' 11).extractLsb' 4 4 = 0#4 then
    some {
      role := if at' 1 = 0#8 then .lead else .follow
      bases := ⟨BitVec.ofNat 18 s, BitVec.ofNat 18 t, BitVec.ofNat 18 a⟩
      params := params }
  else none

end Sys2Proof.Machine
end

