-- ==== Sys2Proof/Machine/Table.lean ====
section
/-! DEFINITION. Sparse data by key: reading, writing, removing, and walking a list of keys and values. -/

namespace Sys2Proof.Assoc

variable {κ α : Type}

/-- The value at a key, if the key is listed. -/
def find [DecidableEq κ] : Assoc κ α → κ → Option α
  | [], _ => none
  | (j, v) :: t, k => if j = k then some v else find t k

/-- Give a key a value; the list stays in ascending order. -/
def put [DecidableEq κ] [LT κ] [DecidableLT κ] : Assoc κ α → κ → α → Assoc κ α
  | [], k, v => [(k, v)]
  | (j, w) :: t, k, v =>
    if k < j then (k, v) :: (j, w) :: t
    else if j = k then (k, v) :: t
    else (j, w) :: put t k v

/-- Remove a key. -/
def drop [DecidableEq κ] : Assoc κ α → κ → Assoc κ α
  | [], _ => []
  | (j, w) :: t, k => if j = k then drop t k else (j, w) :: drop t k

/-- Change every value, each by its key. -/
def mapValues (f : κ → α → α) : Assoc κ α → Assoc κ α
  | [] => []
  | (j, w) :: t => (j, f j w) :: mapValues f t

/-- The keys, in order. -/
def keys : Assoc κ α → List κ
  | [] => []
  | (j, _) :: t => j :: keys t

/-- The lowest number below `n`, from `n - fuel` on, that passes a test. -/
def lowest (p : Nat → Bool) (n : Nat) : Nat → Option Nat
  | 0 => none
  | fuel + 1 => if p (n - (fuel + 1)) then some (n - (fuel + 1)) else lowest p n fuel

end Sys2Proof.Assoc
end

