-- ==== Sys2Proof/Machine/Ops.lean ====
section
/-! DEFINITION. The named operations over the state: the retirement store's bytes, records, contexts, slots, queues,
events, and the steps that come due. -/

namespace Sys2Proof.Machine

/-! ## Bytes of the retirement store -/

/-- The canonical form: addresses strictly rise, and no byte listed equals what an unlisted one reads as. -/
def Memory.wf : Memory → Bool
  | [] => true
  | [(_, b)] => b != Config.unwrittenByte
  | (a, b) :: (a', b') :: t => b != Config.unwrittenByte && decide (a < a') && Memory.wf ((a', b') :: t)

/-- One byte. -/
def Memory.read (m : Memory) (a : Nat) : Byte := (Assoc.find m a).getD Config.unwrittenByte

/-- Write one byte; writing what an unlisted byte reads as removes the entry. -/
def Memory.write (m : Memory) (a : Nat) (b : Byte) : Memory :=
  if b = Config.unwrittenByte then Assoc.drop m a else Assoc.put m a b

/-- Bytes from an address on. -/
def Memory.readBytes (m : Memory) (a : Nat) : Nat → List Byte
  | 0 => []
  | n + 1 => m.read a :: Memory.readBytes m (a + 1) n

/-- Write bytes from an address on. -/
def Memory.writeBytes (m : Memory) (a : Nat) : List Byte → Memory
  | [] => m
  | b :: t => Memory.writeBytes (m.write a b) (a + 1) t

/-! ## Events, due steps and ports -/

/-- Raise an event: appended while fewer than 32 are held, otherwise discarded with LOST set (R164). -/
def State.raise (s : State) (k : EventKind) (c : Channel) : State :=
  if s.du.events.length < Config.eventCapacity then
    { s with du := { s.du with events := s.du.events ++ [⟨k, c⟩] } }
  else { s with du := { s.du with lost := true } }

/-- An own step comes due. -/
def State.addDue (s : State) (d : Due) : State := { s with due := s.due ++ [d] }

/-- What SC drives on the I2C line in this step. -/
def State.drive (s : State) (line : List LineEvent) : State := { s with ports := { s.ports with line := line } }

/-- The link is UP (R82). -/
def State.linkIsUp (s : State) : Bool := s.cl.link == .up

/-! ## Channel records -/

/-- The record of a channel. -/
def State.channel (s : State) (c : Channel) : ChannelRecord := (Assoc.find s.cm c).getD .reset

/-- Replace the record of a channel. -/
def State.setChannel (s : State) (c : Channel) (r : ChannelRecord) : State := { s with cm := Assoc.put s.cm c r }

/-- Change the record of a channel. -/
def State.modChannel (s : State) (c : Channel) (f : ChannelRecord → ChannelRecord) : State :=
  s.setChannel c (f (s.channel c))

/-- The route triple of a phase (chapter 2.2). -/
def Phase.route : Phase → Route
  | .copper => ⟨.pass, .pass, .none⟩
  | .enrolled => ⟨.pass, .pass, .none⟩
  | .joining => ⟨.pass, .pass, .none⟩
  | .shadow => ⟨.pass, .pass, .shadow⟩
  | .proven => ⟨.pass, .pass, .shadow⟩
  | .cutting => ⟨.pass, .pass, .shadow⟩
  | .carried => ⟨.fibre, .pass, .live⟩
  | .retiring => ⟨.fibre, .pass, .live⟩
  | .retired => ⟨.fibre, .idle, .live⟩
  | .recalling => ⟨.fibre, .idle, .live⟩
  | .stranded => ⟨.idle, .idle, .live⟩
  | .fallen => ⟨.pass, .pass, .shadow⟩
  | .leaving => ⟨.pass, .pass, .none⟩

/-- A phase change: the phase, and its triple in the pending route (R25). -/
def ChannelRecord.enter (r : ChannelRecord) (p : Phase) : ChannelRecord := { r with phase := p, pending := p.route }

/-- A phase change that is itself a boundary action: both routes (R26). -/
def ChannelRecord.enterNow (r : ChannelRecord) (p : Phase) : ChannelRecord :=
  { r with phase := p, pending := p.route, active := p.route }

/-- The idle pattern of a channel. The rules call for it only where the record holds one (R8, R68; log 9). -/
def State.idleOf (s : State) (c : Channel) : Pattern :=
  (s.channel c).idle.getD (Config.absentPattern s.freeUsed)

/-- The SHADOW to FALLEN group of chapter 2.4. -/
def Phase.inGroup : Phase → Bool
  | .shadow => true
  | .proven => true
  | .cutting => true
  | .carried => true
  | .fallen => true
  | _ => false

/-- The retired group: RETIRING, RETIRED, RECALLING, STRANDED. -/
def Phase.inRetiredGroup : Phase → Bool
  | .retiring => true
  | .retired => true
  | .recalling => true
  | .stranded => true
  | _ => false

/-- The channel outside COPPER that holds a label, if there is one (R22, R101). -/
def State.channelOfLabel (s : State) (label : Word) : Option Channel :=
  (s.cm.find? fun (_, r) => decide (r.phase ≠ .copper) && decide (r.label = some label)).map Prod.fst

/-- The number of channels outside COPPER (R24). -/
def State.outsideCopper (s : State) : Nat := (s.cm.filter fun (_, r) => decide (r.phase ≠ .copper)).length

/-! ## Contexts and the proof queue -/

/-- An owned context. -/
def State.context (s : State) (k : CtxNo) : Option Context := Assoc.find s.cp.contexts k

/-- Fill a context. -/
def State.setContext (s : State) (k : CtxNo) (x : Context) : State :=
  { s with cp := { s.cp with contexts := Assoc.put s.cp.contexts k x } }

/-- Change a context that is owned. -/
def State.modContext (s : State) (k : CtxNo) (f : Context → Context) : State :=
  match s.context k with
  | none => s
  | some x => s.setContext k (f x)

/-- Free a context (R53). -/
def State.freeContext (s : State) (k : CtxNo) : State :=
  { s with cp := { s.cp with contexts := Assoc.drop s.cp.contexts k } }

/-- The number of free contexts (R46, R65). -/
def State.freeContexts (s : State) : Nat := 64 - s.cp.contexts.length

/-- The lowest-numbered free context. -/
def State.lowestFreeContext (s : State) : Option CtxNo :=
  (Assoc.lowest (fun n => (s.context (Fin.ofNat 64 n)).isNone) 64 64).map (Fin.ofNat 64)

/-- Append a channel to the tail of the proof queue (R48). -/
def State.enqueueProof (s : State) (c : Channel) : State := { s with cp := { s.cp with queue := s.cp.queue ++ [c] } }

/-- Remove a channel from the proof queue; the others keep their order (R49). -/
def State.dequeueProof (s : State) (c : Channel) : State :=
  { s with cp := { s.cp with queue := s.cp.queue.filter (fun d => decide (d ≠ c)) } }

/-- Change the context a channel holds. -/
def State.modContextOf (s : State) (c : Channel) (f : Context → Context) : State :=
  match (s.channel c).context with
  | none => s
  | some k => s.modContext k f

/-- The context a channel holds. -/
def State.contextOf (s : State) (c : Channel) : Option Context := (s.channel c).context.bind s.context

/-- Hand a channel's context back, if it holds one: the context is freed, the context field removed, the lag 0 (R23,
R53). -/
def State.handBack (s : State) (c : Channel) : State :=
  match (s.channel c).context with
  | none => s.modChannel c fun r => { r with lag := 0 }
  | some k => (s.freeContext k).modChannel c fun r => { r with context := none, lag := 0 }

/-- The proof state at its start (R59). -/
def Context.restart (x : Context) : Context := { x with runs := List.replicate 16 0, activeSeen := 0, streak := 0 }

/-! ## Slots -/

/-- The entry of a slot. -/
def State.slot (s : State) (n : SlotNo) : SlotEntry := (Assoc.find s.sn.slots n).getD .reset

/-- Replace the entry of a slot. -/
def State.setSlot (s : State) (n : SlotNo) (e : SlotEntry) : State :=
  { s with sn := { s.sn with slots := Assoc.put s.sn.slots n e } }

/-- Change the entry of a slot. -/
def State.modSlot (s : State) (n : SlotNo) (f : SlotEntry → SlotEntry) : State := s.setSlot n (f (s.slot n))

/-- Counts and runs 0, marks clear; the arrival fields stay (R86). -/
def SlotEntry.clearCounts (e : SlotEntry) : SlotEntry :=
  { e with holdCount := 0, orphanCount := 0, liveRun := 0, shadowRun := 0, peerAhead := false, peerShadow := false,
           followDue := false }

/-- Entry to RESERVED, or to HELD from FREE or RESERVED (R86). -/
def SlotEntry.take (e : SlotEntry) (st : SlotState) (c : Channel) : SlotEntry :=
  { e.clearCounts with state := st, channel := some c, barClock := 0 }

/-- Entry to FREE (R86). -/
def SlotEntry.release (e : SlotEntry) : SlotEntry :=
  { e.clearCounts with state := .free, channel := none, barClock := 0 }

/-- Entry to BARRED, with the bar clock (R86, R87). -/
def SlotEntry.bar (e : SlotEntry) (clock : Nat) : SlotEntry :=
  { e.clearCounts with state := .barred, channel := none, barClock := clock }

/-- Entry to RELEASING from HELD (R86). -/
def SlotEntry.releasing (e : SlotEntry) : SlotEntry :=
  { e with state := .releasing, orphanCount := 0, peerAhead := false, peerShadow := false, followDue := false }

/-- The slot is RESERVED, HELD or RELEASING. -/
def SlotEntry.inUse (e : SlotEntry) : Bool :=
  match e.state with
  | .free => false
  | .reserved => true
  | .held => true
  | .releasing => true
  | .barred => false

/-- A slot set FREE. -/
def State.freeSlot (s : State) (n : SlotNo) : State := s.modSlot n SlotEntry.release

/-- A slot barred: the clock is twice OrphanFrames (R87). -/
def State.barSlot (s : State) (n : SlotNo) : State := s.modSlot n fun e => e.bar (2 * s.sc.params.orphanFrames)

/-- A channel's slot set FREE and removed from its record. -/
def State.releaseSlotOf (s : State) (c : Channel) : State :=
  match (s.channel c).slot with
  | none => s
  | some n => (s.freeSlot n).modChannel c fun r => { r with slot := none }

/-- The lowest-numbered FREE slot (R91). -/
def State.lowestFreeSlot (s : State) : Option SlotNo :=
  (Assoc.lowest (fun n => decide ((s.slot (Fin.ofNat 1024 n)).state = .free)) 1024 1024).map (Fin.ofNat 1024)

/-! ## Notices and schedules -/

/-- Append a request to the notice queue (R90). -/
def State.appendNotice (s : State) (k : NoticeKind) (c : Channel) : State :=
  { s with sn := { s.sn with queue := s.sn.queue ++ [⟨k, c⟩] } }

/-- Remove a channel's queued request of a kind; the others keep their order (R90). -/
def State.removeQueued (s : State) (k : NoticeKind) (c : Channel) : State :=
  { s with sn := { s.sn with queue := s.sn.queue.filter (fun r => decide (r ≠ ⟨k, c⟩)) } }

/-- No own notice is outstanding. -/
def State.clearOutstanding (s : State) : State := { s with sn := { s.sn with outstanding := none } }

/-- The own outstanding notice is of this kind and for this channel. -/
def State.isOutstanding (s : State) (k : NoticeKind) (c : Channel) : Bool :=
  match s.sn.outstanding with
  | none => false
  | some o => decide (o.kind = k) && decide (o.channel = c)

/-- Withdraw a channel's request of a kind, queued or outstanding (R93). The RESERVED slot of a JOIN is freed by the
claim that withdraws it. -/
def State.withdrawNotice (s : State) (k : NoticeKind) (c : Channel) : State :=
  let t := s.removeQueued k c
  if s.isOutstanding k c then t.clearOutstanding else t

/-- Set a cut schedule, replacing any the channel has (R99). -/
def State.schedule (s : State) (c : Channel) (n : SlotNo) (toGo : Nat) : State :=
  { s with sn := { s.sn with schedules := Assoc.put s.sn.schedules c ⟨n, toGo⟩ } }

/-- Cancel a channel's schedule (R99). -/
def State.cancelSchedule (s : State) (c : Channel) : State :=
  { s with sn := { s.sn with schedules := Assoc.drop s.sn.schedules c } }

/-! ## Captures, fibre word registers and the store queue -/

/-- A capture is handed to CL; it replaces an earlier one of the channel (R14, R68). -/
def State.handCapture (s : State) (c : Channel) (x : Capture) : State :=
  { s with cl := { s.cl with captures := Assoc.put s.cl.captures c x } }

/-- A channel's fibre word register. -/
def State.register (s : State) (c : Channel) : Option FibreRegister := Assoc.find s.bi.registers c

/-- Give a channel a fibre word register. -/
def State.setRegister (s : State) (c : Channel) (x : FibreRegister) : State :=
  { s with bi := { s.bi with registers := Assoc.put s.bi.registers c x } }

/-- A register started with a last good word (R111, R115). -/
def FibreRegister.start (w : Pattern) : FibreRegister where
  frameWord := w
  carriedWord := w
  lastGood := w
  repeats := 0
  silent := false
  guardEnding := false

/-- SC takes the head request when no write is in flight: the STORE_WRITE_START step comes due (R144). -/
def State.kickStore (s : State) : State :=
  if s.sc.flight.isNone ∧ s.sc.queue ≠ [] then s.addDue .storeWriteStart else s

/-- Append a store request (R143). -/
def State.appendStore (s : State) (r : WriteRequest) : State :=
  State.kickStore { s with sc := { s.sc with queue := s.sc.queue ++ [r] } }

end Sys2Proof.Machine
end

