-- ==== Sys2Proof/Machine/Flags.lean ====
section
/-! DEFINITION. What the part shows: the report words RP0 to RP15, the results of INSPECT and SLOTVIEW, the attention
sources and ATTN (R45, R65, R84, R109, R151, R158, R159, R163 to R165, R175). -/

namespace Sys2Proof.Machine

/-! ## Codes (R175, R164) -/

/-- The number of an event kind (R164). -/
def EventKind.number : EventKind → BitVec 5
  | .proven => 1
  | .proveFailed => 2
  | .demoted => 3
  | .joined => 4
  | .joinFailed => 5
  | .joinTimeout => 6
  | .cutDone => 7
  | .cutFailed => 8
  | .followed => 9
  | .collapsed => 10
  | .retired => 11
  | .recalled => 12
  | .storeFailed => 13
  | .left => 14
  | .peerLeft => 15
  | .orphaned => 16
  | .fallen => 17
  | .stranded => 18
  | .unstranded => 19
  | .slotSilent => 20
  | .peerAhead => 21
  | .peerShadow => 22
  | .linkUp => 23
  | .linkDown => 24
  | .roleClash => 25
  | .markLost => 26
  | .markRestored => 27
  | .recordSkipped => 28
  | .loadDone => 29

/-- The phase codes. -/
def Phase.code : Phase → BitVec 4
  | .copper => 0
  | .enrolled => 1
  | .joining => 2
  | .shadow => 3
  | .proven => 4
  | .cutting => 5
  | .carried => 6
  | .retiring => 7
  | .retired => 8
  | .recalling => 9
  | .stranded => 10
  | .fallen => 11
  | .leaving => 12

/-- The outcome codes. -/
def DirectiveOutcome.bits : DirectiveOutcome → BitVec 3
  | .done => 0
  | .phase => 1
  | .range => 2
  | .parity => 3
  | .full => 4
  | .link => 5
  | .label => 6
  | .code => 7

/-- The slot state codes. -/
def SlotState.code : SlotState → BitVec 3
  | .free => 0
  | .reserved => 1
  | .held => 2
  | .releasing => 3
  | .barred => 4

/-- The stranding cause in STRANDED or the recall origin in RECALLING, and 0 in other phases. -/
def ChannelRecord.causeBits (r : ChannelRecord) : BitVec 2 :=
  match r.phase with
  | .stranded => match r.cause with
    | some .link => 1
    | some .silence => 2
    | some .load => 3
    | none => 0
  | .recalling => match r.origin with
    | some .retired => 1
    | some .stranded => 2
    | none => 0
  | _ => 0

/-- The phase word: RP1 of INSPECT and of the single-channel directives. -/
def ChannelRecord.phaseWord (r : ChannelRecord) : Word :=
  0#8 ++ r.causeBits ++ bit (decide (r.pending ≠ r.active)) ++ bit r.collapsed ++ r.phase.code

/-- A count shown in `w` bits, with its greatest value for every greater count. -/
def shownCount (w n : Nat) : BitVec w := BitVec.ofNat w (min n (2 ^ w - 1))

/-! ## INSPECT and SLOTVIEW -/

/-- The activity count of a window (R119). -/
def activityCount (window : List Bool) : Nat := (window.filter id).length

/-- The hold count INSPECT shows: that of the channel's slot, or 0 (R109). -/
def State.shownHold (s : State) (r : ChannelRecord) : Nat :=
  match r.slot with
  | none => 0
  | some n => (s.slot n).holdCount

/-- The activity count INSPECT shows: that of the channel's context, or 0 (R65). -/
def State.shownActivity (s : State) (c : Channel) : Nat :=
  match s.contextOf c with
  | none => 0
  | some x => activityCount x.window

/-- The results of INSPECT (R158). -/
def State.inspectResults (s : State) (c : Channel) : Results :=
  let r := s.channel c
  { rp1 := r.phaseWord
    rp2 := match r.slot with
      | none => 0
      | some n => 1#1 ++ 0#5 ++ slotBits n
    rp3 := match r.context with
      | none => 0
      | some k => 1#1 ++ 0#1 ++ BitVec.ofNat 6 k.val ++ 0#4 ++ BitVec.ofNat 4 r.lag.val
    rp4 := r.label.getD 0
    rp5 := match r.idle with
      | none => 0
      | some p => 1#1 ++ 0#3 ++ p
    rp6 := shownCount 10 (s.shownHold r) ++ BitVec.ofNat 6 (s.shownActivity c) }

/-- The kind of an arrival as SLOTVIEW shows it. -/
def ArrivalKind.code : ArrivalKind → BitVec 2
  | .shadow => 0
  | .live => 1
  | .unknown => 2

/-- The results of SLOTVIEW (R159). -/
def State.slotviewResults (s : State) (n : SlotNo) : Results :=
  let e := s.slot n
  { rp1 := 0#13 ++ e.state.code
    rp2 := match e.channel with
      | none => 0
      | some c => 1#1 ++ 0#4 ++ BitVec.ofNat 11 c.val
    rp3 := match e.channel with
      | none => 0
      | some c => (s.channel c).label.getD 0
    rp4 := shownCount 8 e.holdCount ++ shownCount 8 e.orphanCount
    rp5 := match e.visible with
      | none => 0
      | some a => 1#1 ++ bit a.damaged ++ a.kind.code ++ a.word
    rp6 := 0#8 ++ shownCount 8 e.liveRun }

/-! ## Attention (R165) -/

/-- The four attention sources in the bit order of R175: EVENTS, LOST, LINK, DONE. -/
def State.sources (s : State) : BitVec 4 :=
  bit (decide (s.du.events ≠ [])) ++ bit s.du.lost ++ bit (!s.linkIsUp) ++ bit s.du.doneSource

/-- ATTN. -/
def State.attn (s : State) : Bool := s.sources &&& s.du.mask != 0#4

/-! ## Report words -/

/-- BUSY: a directive or step is in progress (R153). -/
def DirectiveUnit.busy (d : DirectiveUnit) : Bool := d.inProgress.isSome

/-- The role as a report bit; an absent own role reads 0. -/
def ownRoleBit : Option Role → Bool
  | none => false
  | some r => roleBit r

/-- The link state code. -/
def LinkState.code : LinkState → BitVec 2
  | .dark => 0
  | .hunting => 1
  | .up => 2

/-- The peer role last seen: 0 unknown, 2 LEAD, 3 FOLLOW. -/
def peerRoleBits : Option Role → BitVec 2
  | none => 0
  | some .lead => 2
  | some .follow => 3

/-- The oldest event as RP7 shows it; kind 0 and channel 0 when there is none (R164). -/
def eventWord : List Event → Word
  | [] => 0
  | e :: _ => e.kind.number ++ BitVec.ofNat 11 e.channel.val

/-- The word DU gives for RPn at this moment, n from 0 to 15 (R16, R163, R175). -/
def State.reportWord (s : State) (n : Nat) : Word :=
  match n with
  | 0 => 0xB#4 ++ bit s.du.busy ++ bit s.du.overrun ++ bit s.du.parity ++ s.du.outcome.bits ++ s.du.tag
  | 1 => s.du.results.rp1
  | 2 => s.du.results.rp2
  | 3 => s.du.results.rp3
  | 4 => s.du.results.rp4
  | 5 => s.du.results.rp5
  | 6 => s.du.results.rp6
  | 7 => eventWord s.du.events
  | 8 => bit s.du.lost ++ 0#9 ++ BitVec.ofNat 6 s.du.events.length
  | 9 => 0#6 ++ peerRoleBits s.cl.peerRole ++ 0#3 ++ bit (ownRoleBit s.cl.role) ++ 0#2 ++ s.cl.link.code
  | 10 => bit (s.ft.mark == .holdover) ++ 0#3 ++ s.ft.frameNumber
  | 11 => 0#9 ++ BitVec.ofNat 7 s.freeContexts
  | 12 => 0#5 ++ BitVec.ofNat 11 s.cp.queue.length
  | 13 => noticeKindBits (s.sn.outstanding.map Outstanding.kind) ++ 0#7 ++ BitVec.ofNat 7 s.sn.queue.length
  | 14 => bit s.sc.flight.isSome ++ bit s.sc.fault ++ 0#9 ++ BitVec.ofNat 5 s.sc.queue.length
  | 15 => 0#4 ++ s.sources ++ 0#4 ++ s.du.mask
  | _ => 0

end Sys2Proof.Machine
end

