-- ==== Sys2Proof/Machine/Claims.lean ====
section
/-! DEFINITION. The claims to the channel map (chapter 2), each with its hand-overs to CP, SN and SC. A claim answers
`none` when it is stale: it changes nothing then (R27). -/

namespace Sys2Proof.Machine

/-! ## Entering migration -/

/-- Enrol one COPPER channel (R29). -/
def State.enrolOne (s : State) (c : Channel) (label : Word) (idle : Pattern) : State :=
  (s.modChannel c fun r => { r.enter .enrolled with label := some label, idle := some idle }).enqueueProof c

/-- The enrol claim over `count` channels from a first channel and label (R29): the state, the number enrolled and the
number skipped. -/
def State.enrolRange (s : State) (first label : Nat) (idle : Pattern) : Nat → State × Nat × Nat
  | 0 => (s, 0, 0)
  | count + 1 =>
    let c : Channel := Fin.ofNat 2048 first
    if (s.channel c).phase = .copper then
      let (t, taken, skipped) :=
        State.enrolRange (s.enrolOne c (BitVec.ofNat 16 label) idle) (first + 1) (label + 1) idle count
      (t, taken + 1, skipped)
    else
      let (t, taken, skipped) := State.enrolRange s (first + 1) (label + 1) idle count
      (t, taken, skipped + 1)

/-- The assign claim (R30). -/
def State.claimAssign (s : State) (c : Channel) (k : CtxNo) : Option State :=
  match (s.channel c).phase with
  | .enrolled =>
    let t := s.modChannel c fun r => { r.enter .joining with context := some k }
    some (if s.cl.role = some .lead then t.appendNotice .join c else t)
  | .fallen => some (s.modChannel c fun r => { r.enter .shadow with context := some k, lag := 0 })
  | _ => none

/-- One assignment (R50): the lowest free context to the head of the proof queue. `none` when no context is free or
the queue is empty. -/
def State.assignHead (s : State) : Option State :=
  match s.cp.queue, s.lowestFreeContext with
  | c :: rest, some k =>
    let t := State.setContext { s with cp := { s.cp with queue := rest } } k (Context.fresh c)
    some ((t.claimAssign c k).getD (t.freeContext k))
  | _, _ => none

/-- Assignments while the conditions of R50 hold, at most `n` of them. -/
def State.assignUpTo : Nat → State → State
  | 0, s => s
  | n + 1, s =>
    match s.assignHead with
    | none => s
    | some t => State.assignUpTo n t

/-- The assignments of one boundary (R50). Each takes one channel from the queue. -/
def State.assignContexts (s : State) : State := State.assignUpTo s.cp.queue.length s

/-- The assign-by-JOIN claim and CP's part in it (R30, R51): `none` when no context is free, or when the claim is
stale. -/
def State.assignByJoin (s : State) (c : Channel) (n : SlotNo) : Option State :=
  match s.lowestFreeContext with
  | none => none
  | some k =>
    if (s.channel c).phase = .enrolled then
      some (((((s.setContext k (Context.fresh c)).dequeueProof c).modSlot n fun e => e.take .held c).modChannel c
        fun r => { r.enter .shadow with context := some k, slot := some n, lag := 0 }).raise .joined c)
    else none

/-! ## Joining (R31) -/

/-- The slot-reserved claim. -/
def State.claimSlotReserved (s : State) (c : Channel) (n : SlotNo) : Option State :=
  if (s.channel c).phase = .joining then
    some ((s.modSlot n fun e => e.take .reserved c).modChannel c fun r => { r with slot := some n })
  else none

/-- The slot-released claim; the slot's own change is SN's. -/
def State.claimSlotReleased (s : State) (c : Channel) (n : SlotNo) : Option State :=
  if (s.channel c).phase = .joining ∧ (s.channel c).slot = some n then
    some (s.modChannel c fun r => { r with slot := none })
  else none

/-- The join-agreed claim: the slot HELD, the channel SHADOW, the proof state at its start (R31, R59). -/
def State.claimJoinAgreed (s : State) (c : Channel) (n : SlotNo) : Option State :=
  if (s.channel c).phase = .joining then
    some ((((s.modSlot n fun e => e.take .held c).modChannel c
      fun r => { r.enter .shadow with slot := some n }).modContextOf c Context.restart).raise .joined c)
  else none

/-- What join failed and join timeout do alike (R31). -/
def State.endJoin (s : State) (c : Channel) (k : EventKind) : State :=
  ((((s.handBack c).withdrawNotice .join c).releaseSlotOf c).modChannel c
    fun r => r.enter .enrolled).enqueueProof c |>.raise k c

/-- The join-failed claim. -/
def State.claimJoinFailed (s : State) (c : Channel) : Option State :=
  if (s.channel c).phase = .joining then some (s.endJoin c .joinFailed) else none

/-- The join-timeout claim. -/
def State.claimJoinTimeout (s : State) (c : Channel) (k : CtxNo) : Option State :=
  if (s.channel c).phase = .joining ∧ (s.channel c).context = some k then some (s.endJoin c .joinTimeout) else none

/-! ## Proof and watching (R32, R33) -/

/-- The proof-success claim. -/
def State.claimProofSuccess (s : State) (c : Channel) (k : CtxNo) (lag : Lag) : Option State :=
  if (s.channel c).phase = .shadow ∧ (s.channel c).context = some k then
    some (((s.modChannel c fun r => { r.enter .proven with lag := lag }).modContext k
      fun x => { x with streak := 0 }).raise .proven c)
  else none

/-- The proof-failure claim. -/
def State.claimProofFailure (s : State) (c : Channel) (k : CtxNo) : Option State :=
  if (s.channel c).phase = .shadow ∧ (s.channel c).context = some k then
    some ((((s.handBack c).releaseSlotOf c).modChannel c fun r => r.enter .enrolled).enqueueProof c
      |>.raise .proveFailed c)
  else none

/-- A channel's own CUT withdrawn and its schedule cancelled. -/
def State.dropCut (s : State) (c : Channel) : State := (s.withdrawNotice .cut c).cancelSchedule c

/-- The demotion claim (R33, R61). -/
def State.claimDemotion (s : State) (c : Channel) (k : CtxNo) : Option State :=
  let r := s.channel c
  if (r.phase = .proven ∨ r.phase = .cutting) ∧ r.context = some k then
    let t := (s.modChannel c fun r => { r.enter .shadow with lag := 0 }).modContext k Context.restart
    some ((if r.phase = .cutting then t.dropCut c else t).raise .demoted c)
  else none

/-! ## Cut, carriage and collapse -/

/-- The cut claim (R34). -/
def State.claimCut (s : State) (c : Channel) : Option State :=
  if (s.channel c).phase = .proven then
    some (((s.modChannel c fun r => r.enter .cutting).modContextOf c
      fun x => { x with cutAttempts := 0 }).appendNotice .cut c)
  else none

/-- The peer-cut-agreed claim (R34). -/
def State.claimPeerCut (s : State) (c : Channel) (n : SlotNo) : Option State :=
  if (s.channel c).slot = some n then
    match (s.channel c).phase with
    | .proven => some (s.modChannel c fun r => r.enter .cutting)
    | .cutting => some (s.removeQueued .cut c)
    | .carried => some s
    | _ => none
  else none

/-- The cut-failed claim (R35). -/
def State.claimCutFailed (s : State) (c : Channel) (n : SlotNo) : Option State :=
  if (s.channel c).phase = .cutting ∧ (s.channel c).slot = some n then
    some ((s.modChannel c fun r => r.enter .proven).raise .cutFailed c)
  else none

/-- What the channel map and the context pool do at an accepted cut (R111, steps 1 and 2). -/
def State.startCarriage (s : State) (c : Channel) : State :=
  (s.modChannel c fun r => { r.enterNow .carried with collapsed := false }).modContextOf c fun x =>
    { x with guardRemaining := s.sc.params.guardFrames, lastSubstituted := x.lastCopper,
             window := List.replicate 32 true }

/-- The collapse claim (R36). -/
def State.claimCollapse (s : State) (c : Channel) (k : CtxNo) : Option State :=
  if (s.channel c).phase = .carried ∧ (s.channel c).context = some k then
    some (((s.handBack c).modChannel c fun r => { r.enterNow .carried with collapsed := true }).raise .collapsed c)
  else none

/-! ## Retirement -/

/-- The retire claim (R37). A record without slot or label is stale (log 19). -/
def State.claimRetire (s : State) (c : Channel) : Option State :=
  let r := s.channel c
  match r.slot, r.label with
  | some n, some l =>
    if r.phase = .carried ∧ r.collapsed = true then
      some ((s.modChannel c fun r => r.enter .retiring).appendStore ⟨.retire, c, n, l, s.idleOf c⟩)
    else none
  | _, _ => none

/-- The recall claim (R38). A record without slot or label is stale (log 19). -/
def State.claimRecall (s : State) (c : Channel) : Option State :=
  let r := s.channel c
  match r.slot, r.label with
  | some n, some l =>
    let request : WriteRequest := ⟨.void, c, n, l, s.idleOf c⟩
    match r.phase with
    | .retired =>
      some ((s.modChannel c fun r => { r.enter .recalling with origin := some .retired }).appendStore request)
    | .stranded =>
      some ((s.modChannel c fun r => { r.enter .recalling with origin := some .stranded }).appendStore request)
    | _ => none
  | _, _ => none

/-- To FALLEN, and to the tail of the proof queue. -/
def State.fall (s : State) (c : Channel) : State :=
  (s.modChannel c fun r => { r.enter .fallen with collapsed := false, cause := none, origin := none }).enqueueProof c

/-- The store-done claim (R37, R38). -/
def State.claimStoreDone (s : State) (c : Channel) : Option State :=
  match (s.channel c).phase with
  | .retiring =>
    some ((if s.linkIsUp = true then s.modChannel c fun r => r.enter .retired
      else s.modChannel c fun r => { r.enter .stranded with cause := some .link }).raise .retired c)
  | .recalling =>
    some (if (s.channel c).origin = some .retired ∧ s.linkIsUp = true then
      (s.modChannel c fun r => { r.enter .carried with collapsed := true, origin := none, cause := none }).raise
        .recalled c
      else (s.fall c).raise .fallen c)
  | _ => none

/-- The store-failed claim (R37, R38). -/
def State.claimStoreFailed (s : State) (c : Channel) : Option State :=
  match (s.channel c).phase with
  | .retiring =>
    some ((if s.linkIsUp = true then s.modChannel c fun r => { r.enter .carried with collapsed := true }
      else s.fall c).raise .storeFailed c)
  | .recalling =>
    some ((if (s.channel c).origin = some .retired then
      if s.linkIsUp = true then s.modChannel c fun r => { r.enter .retired with origin := none }
      else s.modChannel c fun r => { r.enter .stranded with origin := none, cause := some .link }
      else s.modChannel c fun r => { r.enter .stranded with origin := none }).raise .storeFailed c)
  | _ => none

/-- The silence claim (R39). -/
def State.claimSilence (s : State) (c : Channel) (n : SlotNo) : Option State :=
  if (s.channel c).phase = .retired ∧ (s.channel c).slot = some n then
    some ((s.modChannel c fun r => { r.enter .stranded with cause := some .silence }).raise .stranded c)
  else none

/-- The heard claim (R39). -/
def State.claimHeard (s : State) (c : Channel) (n : SlotNo) : Option State :=
  if (s.channel c).phase = .stranded ∧ (s.channel c).slot = some n then
    let t := s.modChannel c fun r => { r.enter .retired with cause := none }
    some (if (s.channel c).cause = some .silence then t.raise .unstranded c else t)
  else none

/-! ## Carrier loss (R40) -/

/-- The carrier-loss claim for one channel. -/
def State.loseCarrier (s : State) (c : Channel) : State :=
  match (s.channel c).phase with
  | .shadow => s.modContextOf c Context.restart
  | .proven => (s.modContextOf c Context.restart).modChannel c fun r => { r.enter .shadow with lag := 0 }
  | .cutting =>
    ((s.modContextOf c Context.restart).modChannel c fun r => { r.enter .shadow with lag := 0 }).dropCut c
  | .carried => (s.handBack c).fall c
  | .retired => s.modChannel c fun r => { r.enter .stranded with cause := some .link }
  | _ => s

/-- The carrier-loss claim, channel by channel in ascending order. A channel not listed is in COPPER. -/
def State.claimCarrierLoss (s : State) : State := (Assoc.keys s.cm).foldl State.loseCarrier s

/-! ## Withdrawal, departure and abandon -/

/-- The withdraw claim (R41). -/
def State.claimWithdraw (s : State) (c : Channel) : Option State :=
  let toLeaving (t : State) : State :=
    ((t.dropCut c).modChannel c fun r => { r.enter .leaving with collapsed := false, lag := 0 }).appendNotice .leave c
  match (s.channel c).phase with
  | .enrolled => some ((s.dequeueProof c).modChannel c fun r => { r.enter .copper with label := none })
  | .joining =>
    some ((((s.handBack c).withdrawNotice .join c).releaseSlotOf c).modChannel c
      fun r => { r.enter .copper with label := none })
  | .shadow => some (toLeaving (s.handBack c))
  | .proven => some (toLeaving (s.handBack c))
  | .cutting => some (toLeaving (s.handBack c))
  | .carried => some (toLeaving (s.handBack c))
  | .fallen => some (toLeaving (s.dequeueProof c))
  | _ => none

/-- The leave-resolved claim (R42); `barred` when the reply was DECLINE. -/
def State.claimLeaveResolved (s : State) (c : Channel) (n : SlotNo) (barred : Bool) : Option State :=
  if (s.channel c).phase = .leaving ∧ (s.channel c).slot = some n then
    let t := s.withdrawNotice .leave c
    some (((if barred = true then t.barSlot n else t.freeSlot n).modChannel c
      fun r => { r.enter .copper with slot := none, label := none }).raise .left c)
  else none

/-- The peer-left and orphaned claims (R42), which differ in the event. -/
def State.claimGone (s : State) (c : Channel) (n : SlotNo) (k : EventKind) : Option State :=
  let r := s.channel c
  if r.phase.inGroup = true ∧ r.slot = some n then
    let t := ((s.handBack c).releaseSlotOf c).dropCut c
    let t := if r.phase = .fallen then t.dequeueProof c else t
    some (((t.modChannel c fun r => { r.enter .enrolled with collapsed := false, lag := 0 }).enqueueProof c).raise k c)
  else none

/-- A record after ABANDON (R43). -/
def ChannelRecord.abandoned (r : ChannelRecord) : ChannelRecord :=
  if r.phase.inRetiredGroup = true then r
  else { r.enter .copper with label := none, slot := none, context := none, lag := 0, collapsed := false }

/-- ABANDON frees the slot: BARRED, or in use by a channel the claim concerns (R108). -/
def State.abandonsSlot (s : State) (e : SlotEntry) : Bool :=
  match e.state, e.channel with
  | .barred, _ => true
  | _, none => false
  | _, some c => e.inUse && !(s.channel c).phase.inRetiredGroup

/-- The abandon claim (R43, R64, R108): the state, the number of channels moved to COPPER, and the number of slots set
FREE. -/
def State.claimAbandon (s : State) : State × Nat × Nat :=
  let moved := (s.cm.filter fun (_, r) => decide (r.phase ≠ .copper) && !r.phase.inRetiredGroup).length
  let freed := (s.sn.slots.filter fun (_, e) => s.abandonsSlot e).length
  ({ s with
      cm := Assoc.mapValues (fun _ r => r.abandoned) s.cm
      cp := ⟨[], []⟩
      sn := { s.sn with
        slots := Assoc.mapValues (fun _ e => if s.abandonsSlot e = true then e.release else e) s.sn.slots
        queue := []
        outstanding := none
        schedules := [] } }, moved, freed)

end Sys2Proof.Machine
end

