-- ==== Sys2Proof/Machine/Carriage.lean ====
section
/-! DEFINITION. The fibre word of every frame, the guard, the quiet test, the collapse, and the cut (chapter 6), with
the commands GUARD_END, SLOT_SILENT, CUT_DUE and FOLLOW_CUT. -/

namespace Sys2Proof.Machine

/-! ## The source word and the fibre word -/

/-- A visible arrival as a good word: present and not damaged. -/
def goodArrival : Option Arrival → Option Pattern
  | none => none
  | some a => if a.damaged = true then none else some a.word

/-- The source word of a channel, or none when it is not good (R116): the delay entry at the lag where a context is
held, else the visible arrival of the slot. -/
def State.sourceWord (s : State) (c : Channel) : Option Pattern :=
  match s.contextOf c with
  | some x => x.delay.getD (s.channel c).lag.val none
  | none =>
    match (s.channel c).slot with
    | none => none
    | some n => goodArrival (s.slot n).visible

/-- The carried word, the last good word, the repeat count and the silent mark of a frame (R116, R117). The mark of a
spell that reaches the idle pattern is left to SLOT_SILENT. -/
def FibreRegister.choose (x : FibreRegister) (source : Option Pattern) (holdLimit : Nat) (idle : Pattern) :
    FibreRegister :=
  match source with
  | some w => { x with carriedWord := w, lastGood := w, repeats := 0, silent := false }
  | none =>
    let n := min Config.repeatMax (x.repeats + 1)
    { x with repeats := n, carriedWord := if n ≤ holdLimit then x.lastGood else idle }

/-- The held supervision of a guarded frame: that of the last copper word (R113). The context holds one at every cut
(R111; log 9). -/
def State.heldSupervision (s : State) (x : Context) : Nibble :=
  supervisionOf (x.lastCopper.getD (Config.absentPattern s.freeUsed))

/-- The frame word made from a carried word: guarded while the context's guard remains (R113, R116). -/
def State.guardedWord (s : State) (c : Channel) (w : Pattern) : Pattern :=
  match s.contextOf c with
  | none => w
  | some x =>
    if (s.channel c).phase = .carried ∧ x.guardRemaining > 0 then pattern (s.heldSupervision x) (codeOf w) else w

/-- One activity mark (R119). -/
def Context.mark (x : Context) (carried : Pattern) : Context :=
  { x with
    window := (decide (some carried ≠ x.lastSubstituted) :: x.window).take 32
    lastSubstituted := some carried }

/-- Choose the fibre word of the frame that begins (R116, R117) and enter its activity mark (R119). SLOT_SILENT comes
due where the count passes HoldLimit and the silent mark is clear. -/
def State.chooseWord (s : State) (c : Channel) : State :=
  match s.register c with
  | none => s
  | some x =>
    let y := x.choose (s.sourceWord c) s.sc.params.holdLimit (s.idleOf c)
    let t := s.setRegister c { y with frameWord := s.guardedWord c y.carriedWord }
    let t := if (s.channel c).phase = .carried then t.modContextOf c fun k => k.mark y.carriedWord else t
    if s.sc.params.holdLimit < y.repeats ∧ y.silent = false then t.addDue (.slotSilent c) else t

/-! ## The quiet test and the collapse -/

/-- The quiet test of a context whose guard has ended (R120). -/
def State.quiet (s : State) (c : Channel) (x : Context) (y : FibreRegister) : Bool :=
  decide ((s.channel c).lag = 0) || decide (activityCount x.window ≤ s.sc.params.quietLimit) ||
  decide (supervisionOf y.carriedWord = supervisionOf (s.idleOf c))

/-- The quiet test of a carried channel at a boundary that is not its cut's, and the collapse claim when the test is
met (R113, R120, R121). -/
def State.quietStep (s : State) (c : Channel) : State :=
  match (s.channel c).context, s.register c with
  | some k, some y =>
    match s.context k with
    | none => s
    | some x =>
      if (s.channel c).phase = .carried ∧ x.guardRemaining = 0 ∧ s.quiet c x y = true then
        (s.claimCollapse c k).getD s
      else s
  | _, _ => s

/-- The step of one register at a boundary: quiet test, then choice (R116). A register whose guard has just ended is
left to GUARD_END. -/
def State.carryStep (s : State) (c : Channel) : State :=
  match s.register c with
  | none => s
  | some y => if y.guardEnding = true then s else (s.quietStep c).chooseWord c

/-- The step of every register at a boundary. DESIGN CHOICE (log 30): no rule orders the channels that collapse at one
boundary; their COLLAPSED events enter in ascending channel number. -/
def State.carryAll (s : State) : State := (Assoc.keys s.bi.registers).foldl State.carryStep s

/-! ## The cut -/

/-- The cut of a channel (R111): routes, context, register, word, event. -/
def State.cutNow (s : State) (c : Channel) (k : EventKind) : State :=
  let t := s.startCarriage c
  let last := ((s.contextOf c).bind Context.lastCopper).getD (Config.absentPattern s.freeUsed)
  ((t.setRegister c (FibreRegister.start last)).chooseWord c).raise k c

/-- The cut-due claim (R35). -/
def State.claimCutDue (s : State) (c : Channel) (n : SlotNo) : Option State :=
  if (s.channel c).phase = .cutting ∧ (s.channel c).slot = some n then some (s.cutNow c .cutDone) else none

/-- The follow-cut claim (R35). -/
def State.claimFollowCut (s : State) (c : Channel) (n : SlotNo) : Option State :=
  if ((s.channel c).phase = .proven ∨ (s.channel c).phase = .cutting) ∧ (s.channel c).slot = some n then
    some ((s.dropCut c).cutNow c .followed)
  else none

/-! ## What the own steps do when they are taken -/

/-- CUT_DUE (R99): the cut-due claim; a stale one does nothing more. -/
def State.takeCutDue (s : State) (c : Channel) (n : SlotNo) : State := (s.claimCutDue c n).getD s

/-- FOLLOW_CUT (R104): the mark is cleared and the follow-cut claim is made. A mark already cleared (R107) makes no
claim. -/
def State.takeFollowCut (s : State) (c : Channel) (n : SlotNo) : State :=
  if (s.slot n).followDue = true then
    let t := s.modSlot n fun e => { e with followDue := false }
    (t.claimFollowCut c n).getD t
  else s

/-- GUARD_END (R113): the guard has ended; the quiet test is made and the word chosen, with the fibre supervision. -/
def State.takeGuardEnd (s : State) (c : Channel) : State :=
  match s.register c with
  | none => s
  | some y => ((s.setRegister c { y with guardEnding := false }).quietStep c).chooseWord c

/-- A register with the idle pattern substituted. A frame word chosen from it at the boundary stands for the frame, with
the guard it was chosen under (R114, R116). -/
def State.substituteIdle (s : State) (c : Channel) (y : FibreRegister) (w : Pattern) : FibreRegister :=
  if y.carriedWord = w then y else { y with carriedWord := w, frameWord := s.guardedWord c w }

/-- SLOT_SILENT (R117): the idle pattern is substituted, the mark is set, and the event raised if the link is UP. A
loss count of 16 means the link leaves UP at this boundary: no event (R118, log 16). -/
def State.takeSlotSilent (s : State) (c : Channel) : State :=
  match s.register c with
  | none => s
  | some y =>
    if s.sc.params.holdLimit < y.repeats ∧ y.silent = false then
      let t := s.setRegister c { s.substituteIdle c y (s.idleOf c) with silent := true }
      if s.linkIsUp = true ∧ s.cl.lossCount < Config.lossLimit then t.raise .slotSilent c else t
    else s

end Sys2Proof.Machine
end

