-- ==== Sys2Proof/Machine/Notice.lean ====
section
/-! DEFINITION. The slot table and notice unit: own notices and their outcomes (R90 to R99), the peer's notices (R100
to R103), and the tests that read the traffic (R89, R104 to R106). -/

namespace Sys2Proof.Machine

/-! ## Own notices -/

/-- The channel's label as a notice carries it. A channel that sends a JOIN holds one (R22; log 9). -/
def State.labelOf (s : State) (c : Channel) : Word := (s.channel c).label.getD (Config.absentLabel s.freeUsed)

/-- Make a request the outstanding notice; it takes the next number (R91). -/
def State.place (s : State) (r : Request) (n : SlotNo) : State :=
  { s with sn := { s.sn with
      outstanding := some {
        kind := r.kind
        number := s.sn.nextNumber
        channel := r.channel
        slot := n
        label := if r.kind = .join then s.labelOf r.channel else 0
        countdown := if r.kind = .cut then s.sc.params.noticeLead else 0
        age := 0
        firstSent := none
        expired := false }
      nextNumber := s.sn.nextNumber + 1 } }

/-- One head request, already removed from the queue (R91). A JOIN that finds no FREE slot fails and does not become
outstanding. -/
def State.placeHead (s : State) (r : Request) : State :=
  match r.kind with
  | .join =>
    match s.lowestFreeSlot with
    | none => (s.claimJoinFailed r.channel).getD s
    | some n =>
      match s.claimSlotReserved r.channel n with
      | none => s
      | some t => t.place r n
  | .cut =>
    match (s.channel r.channel).slot with
    | none => s
    | some n => s.place r n
  | .leave =>
    match (s.channel r.channel).slot with
    | none => s
    | some n => (s.modSlot n SlotEntry.releasing).place r n

/-- Take heads until one becomes outstanding or the queue is empty, at most `n` of them (R91). -/
def State.placeUpTo : Nat → State → State
  | 0, s => s
  | n + 1, s =>
    if s.sn.outstanding.isSome = true then s
    else
      match s.sn.queue with
      | [] => s
      | r :: rest => State.placeUpTo n (State.placeHead { s with sn := { s.sn with queue := rest } } r)

/-- SN's test at a boundary (R91). -/
def State.makeOutstanding (s : State) : State := State.placeUpTo s.sn.queue.length s

/-- The attempts of a channel's context after one more, which the context keeps (R95, R96). -/
def Context.moreJoinAttempts (x : Context) : Context := { x with joinAttempts := x.joinAttempts + 1 }

/-- One more CUT attempt. -/
def Context.moreCutAttempts (x : Context) : Context := { x with cutAttempts := x.cutAttempts + 1 }

/-- The JOIN attempts of a channel's context. -/
def State.joinAttempts (s : State) (c : Channel) : Nat :=
  match s.contextOf c with
  | none => 0
  | some x => x.joinAttempts

/-- The CUT attempts of a channel's context. -/
def State.cutAttempts (s : State) (c : Channel) : Nat :=
  match s.contextOf c with
  | none => 0
  | some x => x.cutAttempts

/-- A JOIN declined or expired with attempts left to count (R95): at the eighth JOIN_FAILED comes due; before it the
retry gap starts, or a JOIN is appended. -/
def State.joinSetback (s : State) (c : Channel) (gap : Bool) : State :=
  let t := s.modContextOf c Context.moreJoinAttempts
  if Config.joinLimit ≤ t.joinAttempts c then t.addDue (.joinFailed c)
  else if gap = true then t.modContextOf c fun x => { x with retryGap := Config.retryGap }
  else t.appendNotice .join c

/-- A CUT declined or expired (R96): at the third CUT_FAILED comes due; before it a CUT is appended. -/
def State.cutSetback (s : State) (c : Channel) (n : SlotNo) : State :=
  let t := s.modContextOf c Context.moreCutAttempts
  if Config.cutLimit ≤ t.cutAttempts c then t.addDue (.cutFailed c n) else t.appendNotice .cut c

/-- A JOIN's RESERVED slot is freed, with the slot-released claim (R95). -/
def State.freeReserved (s : State) (c : Channel) (n : SlotNo) : State :=
  let t := s.freeSlot n
  (t.claimSlotReleased c n).getD t

/-- A JOIN's RESERVED slot is barred, with the slot-released claim (R95). -/
def State.barReserved (s : State) (c : Channel) (n : SlotNo) : State :=
  let t := s.barSlot n
  (t.claimSlotReleased c n).getD t

/-- The boundaries to go of a schedule set by the AGREE of an own CUT (R96): the countdown of the first frame that
carried it, less the boundaries taken since. A CUT that no frame has carried counts from its countdown (log 17). -/
def Outstanding.boundariesToGo (o : Outstanding) : Nat :=
  match o.firstSent with
  | none => o.countdown
  | some (first, taken) => first - taken

/-- The outcome of an own JOIN by its reply (R95). The notice is no longer outstanding. -/
def State.joinReply (s : State) (o : Outstanding) (r : Reply) : State :=
  match r with
  | .agree => (s.claimJoinAgreed o.channel o.slot).getD (s.freeSlot o.slot)
  | .decline .notReady => (s.freeReserved o.channel o.slot).joinSetback o.channel true
  | .decline .slotBusy => (s.barReserved o.channel o.slot).joinSetback o.channel false
  | .decline _ => (s.freeReserved o.channel o.slot).addDue (.joinFailed o.channel)

/-- The outcome of an own CUT by its reply (R96). At FOLLOW a CROSSED decline raises no attempts. -/
def State.cutReply (s : State) (o : Outstanding) (r : Reply) : State :=
  match r with
  | .agree => s.schedule o.channel o.slot o.boundariesToGo
  | .decline reason =>
    if reason = .crossed ∧ s.cl.role = some .follow then s.appendNotice .cut o.channel
    else s.cutSetback o.channel o.slot

/-- The outcome of an own LEAVE by its reply (R97). -/
def State.leaveReply (s : State) (o : Outstanding) (r : Reply) : State :=
  (s.claimLeaveResolved o.channel o.slot (decide (r ≠ .agree))).getD s

/-- The peer's reply field (R94): it acts only on an outstanding notice with its number. -/
def State.takeReply (s : State) (r : Option ReplyField) : State :=
  match r, s.sn.outstanding with
  | some field, some o =>
    if field.number = o.number then
      let t := s.clearOutstanding
      match o.kind with
      | .join => t.joinReply o field.reply
      | .cut => t.cutReply o field.reply
      | .leave => t.leaveReply o field.reply
    else s
  | _, _ => s

/-- An outstanding notice after the report of a frame that carried it (R92). -/
def Outstanding.reported (o : Outstanding) (noticeWait : Nat) : Outstanding :=
  let age := o.age + 1
  let countdown := if o.kind = .cut then o.countdown - 1 else o.countdown
  { o with
    age := age
    countdown := countdown
    expired := if o.kind = .cut then decide (countdown = 0) else decide (noticeWait ≤ age) }

/-- A sent frame carried the outstanding notice. -/
def carriedBy (o : Outstanding) (f : NoticeField) : Bool :=
  decide (f.kind = some o.kind) && decide (f.number = o.number) && decide (f.slot = o.slot)

/-- The transmitter's report that the frame being sent has gone out (R71, R92). -/
def State.reportSent (s : State) : State :=
  match s.cl.sending with
  | none => s
  | some f =>
    let t := { s with cl := { s.cl with sending := none } }
    match s.sn.outstanding with
    | none => t
    | some o =>
      if carriedBy o f.notice = true then
        let o' := o.reported s.sc.params.noticeWait
        let t := { t with sn := { t.sn with outstanding := some o' } }
        if o'.expired = true then t.addDue (.noticeExpiry o'.number) else t
      else t

/-- NOTICE_EXPIRY (R92, R95 to R97): the expired notice is no longer outstanding, and its outcome is that of expiry. -/
def State.takeNoticeExpiry (s : State) (number : BitVec 4) : State :=
  match s.sn.outstanding with
  | none => s
  | some o =>
    if o.number = number ∧ o.expired = true then
      let t := s.clearOutstanding
      match o.kind with
      | .join => (t.freeReserved o.channel o.slot).joinSetback o.channel false
      | .cut => t.cutSetback o.channel o.slot
      | .leave => (t.claimLeaveResolved o.channel o.slot false).getD t
    else s

/-- JOIN_FAILED (R95): the claim. -/
def State.takeJoinFailed (s : State) (c : Channel) : State := (s.claimJoinFailed c).getD s

/-- CUT_FAILED (R96): the claim. -/
def State.takeCutFailed (s : State) (c : Channel) (n : SlotNo) : State := (s.claimCutFailed c n).getD s

/-- The join clock of a context has reached JoinWait (R52). -/
def State.joinClockOver (s : State) (k : CtxNo) : Bool :=
  match s.context k with
  | none => false
  | some x => decide (s.sc.params.joinWait ≤ x.joinClock)

/-- JOIN_TIMEOUT (R52): the claim. A context assigned afresh in the meantime counts from 0 and makes none. -/
def State.takeJoinTimeout (s : State) (c : Channel) (k : CtxNo) : State :=
  if s.joinClockOver k = true then (s.claimJoinTimeout c k).getD s else s

/-- A channel has a request of a kind, queued or outstanding. -/
def State.requested (s : State) (k : NoticeKind) (c : Channel) : Bool :=
  decide (⟨k, c⟩ ∈ s.sn.queue) || s.isOutstanding k c

/-- RETRY_GAP_END (R98), at LEAD: a JOIN for the owner is appended. A context handed back in the meantime has taken its
gap with it; during the gap no request of the owner is queued or outstanding, and one that a fresh assignment has made in
the meantime is the only one. -/
def State.takeRetryGapEnd (s : State) (c : Channel) (k : CtxNo) : State :=
  if (s.channel c).phase = .joining ∧ (s.channel c).context = some k ∧ s.cl.role = some .lead ∧
      s.requested .join c = false then s.appendNotice .join c
  else s

/-- BAR_CLOCK_EXPIRY (R87): the slot becomes FREE. -/
def State.takeBarClockExpiry (s : State) (n : SlotNo) : State :=
  if (s.slot n).state = .barred ∧ (s.slot n).barClock = 0 then s.freeSlot n else s

/-! ## The peer's notices -/

/-- The channel a slot entry names, with its record. -/
def State.slotOwner (s : State) (n : SlotNo) : Option (Channel × ChannelRecord) :=
  (s.slot n).channel.map fun c => (c, s.channel c)

/-- A new peer JOIN (R101). -/
def State.judgeJoin (s : State) (n : SlotNo) (label : Word) : State × Reply :=
  let e := s.slot n
  if s.cl.role = some .lead then (s, .decline .crossed)
  else if e.state = .held ∧ (s.slotOwner n).bind (fun p => p.2.label) = some label then (s, .agree)
  else
    match s.channelOfLabel label with
    | none => (s, .decline .unknown)
    | some c =>
      if e.state ≠ .free then (s, .decline .slotBusy)
      else
        match (s.channel c).phase with
        | .joining =>
          match s.claimJoinAgreed c n with
          | some t => (t, .agree)
          | none => (s, .decline .notReady)
        | .enrolled =>
          match s.assignByJoin c n with
          | some t => (t, .agree)
          | none => (s, .decline .notReady)
        | .retiring => (s, .decline .retired)
        | .retired => (s, .decline .retired)
        | .recalling => (s, .decline .retired)
        | .stranded => (s, .decline .retired)
        | _ => (s, .decline .notReady)

/-- Agree a peer CUT: the claim, and the schedule of a channel that is to be cut (R102). -/
def State.agreeCut (s : State) (c : Channel) (n : SlotNo) (countdown : Nat) : State × Reply :=
  match s.claimPeerCut c n with
  | some t => (t.schedule c n countdown, .agree)
  | none => (s, .decline .notProven)

/-- A new peer CUT (R102; R134 for a LEAVING channel). A countdown of 0 is taken as 1. -/
def State.judgeCut (s : State) (n : SlotNo) (countdown : Nat) : State × Reply :=
  let count := max 1 countdown
  match (s.slot n).state, s.slotOwner n with
  | .held, some (c, r) =>
    match r.phase with
    | .proven => s.agreeCut c n count
    | .cutting =>
      if s.isOutstanding .cut c = true then
        if s.cl.role = some .lead then (s, .decline .crossed) else (s.clearOutstanding).agreeCut c n count
      else s.agreeCut c n count
    | .carried => (s, .agree)
    | .retiring => (s, .decline .retired)
    | .retired => (s, .decline .retired)
    | .recalling => (s, .decline .retired)
    | .stranded => (s, .decline .retired)
    | _ => (s, .decline .notProven)
  | _, _ => (s, .decline .notProven)

/-- A new peer LEAVE (R103). -/
def State.judgeLeave (s : State) (n : SlotNo) : State × Reply :=
  match s.slotOwner n with
  | none => (s, .agree)
  | some (c, r) =>
    if (s.slot n).state = .held ∧ r.phase.inGroup = true then ((s.claimGone c n .peerLeft).getD s, .agree)
    else if ((s.slot n).state = .held ∨ (s.slot n).state = .releasing) ∧ r.phase = .leaving then
      ((s.claimLeaveResolved c n false).getD s, .agree)
    else if (s.slot n).state = .held ∧ r.phase.inRetiredGroup = true then (s, .decline .retired)
    else (s, .agree)

/-- The notice is a repeat of the recorded one (R100): number, kind and slot all equal. -/
def isRepeat (p : PeerNotice) (k : NoticeKind) (f : NoticeField) : Bool :=
  decide (p.number = f.number) && decide (p.kind = k) && decide (p.slot = f.slot)

/-- A new notice: the reply is decided, and the record replaced (R100). -/
def State.judgeNotice (s : State) (k : NoticeKind) (f : NoticeField) : State :=
  let (t, reply) := match k with
    | .join => s.judgeJoin f.slot f.label
    | .cut => s.judgeCut f.slot f.countdown.toNat
    | .leave => s.judgeLeave f.slot
  { t with sn := { t.sn with
      peer := some ⟨k, f.number, f.slot, if k = .join then f.label else 0, reply⟩ } }

/-- The claims that the reply of this header has brought due, taken before its notice is judged (R94, R100). -/
def State.takeReplyClaim (s : State) (d : Due) : State :=
  match d with
  | .joinFailed c => s.takeJoinFailed c
  | .cutFailed c n => s.takeCutFailed c n
  | d => s.addDue d

/-- All due steps, those two kinds taken and the others kept in their order. -/
def State.takeReplyClaims (s : State) : State := s.due.foldl State.takeReplyClaim { s with due := [] }

/-- The peer's notice field (R100). -/
def State.takeNotice (s : State) (f : NoticeField) : State :=
  match f.kind with
  | none => s
  | some k =>
    match s.sn.peer with
    | none => s.takeReplyClaims.judgeNotice k f
    | some p => if isRepeat p k f = true then s else s.takeReplyClaims.judgeNotice k f

/-! ## What is read from the traffic -/

/-- The steps of R89 on one slot entry in use: `phase` is that of its channel, `named` the kind the report gives. -/
def SlotEntry.stepReport (e : SlotEntry) (phase : Phase) (named : Option ArrivalKind) : SlotEntry :=
  let held := e.state = .held
  let uncut := phase = .shadow ∨ phase = .fallen
  match named with
  | some .live =>
    { e with orphanCount := if held then 0 else e.orphanCount, liveRun := if uncut then 0 else min 255 (e.liveRun + 1),
             shadowRun := 0, peerShadow := false }
  | some .shadow =>
    { e with orphanCount := if held then 0 else e.orphanCount, liveRun := 0, shadowRun := min 255 (e.shadowRun + 1),
             peerAhead := false }
  | some .unknown => { e with orphanCount := if held then 0 else e.orphanCount }
  | none =>
    { e with orphanCount := if held then min 65535 (e.orphanCount + 1) else e.orphanCount, liveRun := 0, shadowRun := 0,
             peerAhead := false, peerShadow := false }

/-- The follow test (R104). -/
def State.followTest (s : State) (n : SlotNo) (phase : Phase) (named : Option ArrivalKind) : State :=
  let e := s.slot n
  if e.state = .held ∧ (phase = .proven ∨ phase = .cutting) ∧ named = some .live ∧ Config.runLimit ≤ e.liveRun then
    s.modSlot n fun e => { e with followDue := true }
  else s

/-- The peer-ahead test (R104). -/
def State.peerAheadTest (s : State) (n : SlotNo) (c : Channel) (phase : Phase) (named : Option ArrivalKind) : State :=
  let e := s.slot n
  if e.state = .held ∧ (phase = .shadow ∨ phase = .fallen) ∧ named = some .live ∧ e.peerAhead = false then
    (s.modSlot n fun e => { e with peerAhead := true }).raise .peerAhead c
  else s

/-- The condition of the peer-shadow mark (R105). DESIGN CHOICE (log 24): the shadow run is the one R89 keeps, which no
rule restarts at the cut, so records taken before the cut count towards the eight. -/
def State.peerShadowHolds (s : State) (n : SlotNo) (phase : Phase) : Bool :=
  let e := s.slot n
  decide (e.state = .held) && decide (phase = .carried) && decide (Config.runLimit ≤ e.shadowRun) && !e.peerShadow

/-- The step of R89 on the slot of a channel. -/
def State.stepTest (s : State) (n : SlotNo) (c : Channel) (named : Option ArrivalKind) : State :=
  s.modSlot n fun e => e.stepReport (s.channel c).phase named

/-- The follow test and the peer-ahead test (R104). -/
def State.aheadTest (s : State) (n : SlotNo) (c : Channel) (named : Option ArrivalKind) : State :=
  let phase := (s.channel c).phase
  (s.followTest n phase named).peerAheadTest n c phase named

/-- The peer-shadow test (R105): PEER_SHADOW comes due. -/
def State.shadowTest (s : State) (n : SlotNo) (c : Channel) (named : Option ArrivalKind) : State :=
  if named = some .shadow ∧ s.peerShadowHolds n (s.channel c).phase = true then s.addDue (.peerShadow n) else s

/-- The orphan test (R106): ORPHAN_TEST comes due. -/
def State.silenceTest (s : State) (n : SlotNo) (_ : Channel) (named : Option ArrivalKind) : State :=
  let e := s.slot n
  if e.state = .held ∧ named = none ∧ s.sc.params.orphanFrames ≤ e.orphanCount then s.addDue (.orphanTest n) else s

/-- A STRANDED channel heard (R89): its heard claim comes due. -/
def State.heardTest (s : State) (n : SlotNo) (c : Channel) (named : Option ArrivalKind) : State :=
  if (named = some .live ∨ named = some .shadow) ∧ (s.channel c).phase = .stranded then s.addDue (.heard n) else s

/-- The heard claim for the channel of a slot (R39); a stale one changes nothing. -/
def State.hear (s : State) (n : SlotNo) : State :=
  match (s.slot n).channel with
  | none => s
  | some c => (s.claimHeard c n).getD s

/-- The heard claims at the head of a list of due steps, taken. -/
def State.takeHeardFrom : List Due → State → State
  | .heard n :: rest, s => State.takeHeardFrom rest (State.hear { s with due := rest } n)
  | _, s => s

/-- The heard claims that no earlier due step stands before, taken (R89, R39; log 25). -/
def State.takeHeard (s : State) : State := State.takeHeardFrom s.due s

/-- One test of a report on one slot, if the slot is in use. -/
def State.onSlot (named : Assoc SlotNo ArrivalKind)
    (test : State → SlotNo → Channel → Option ArrivalKind → State) (s : State) (n : SlotNo) : State :=
  let e := s.slot n
  match e.inUse, e.channel with
  | true, some c => test s n c (Assoc.find named n)
  | _, _ => s

/-- One test of a report on every slot in use, in ascending order: a slot not listed is FREE. DESIGN CHOICE (log 25): the
spec gives no order between the slots of one report, and so none between the events they raise. -/
def State.eachSlot (s : State) (named : Assoc SlotNo ArrivalKind)
    (test : State → SlotNo → Channel → Option ArrivalKind → State) : State :=
  (Assoc.keys s.sn.slots).foldl (State.onSlot named test) s

/-- The report of a valid frame (R74, R89): every slot steps, and then the tests are applied in turn. The heard claims
come after the orphan test: where PEER_SHADOW, ORPHAN_TEST or an earlier step is due they wait behind it, and they are
made at once where none is (log 25). -/
def State.report (s : State) (named : Assoc SlotNo ArrivalKind) : State :=
  let s := s.eachSlot named State.stepTest
  let s := s.eachSlot named State.aheadTest
  let s := s.eachSlot named State.shadowTest
  let s := s.eachSlot named State.silenceTest
  (s.eachSlot named State.heardTest).takeHeard

/-- ORPHAN_TEST (R106). -/
def State.takeOrphanTest (s : State) (n : SlotNo) : State :=
  let e := s.slot n
  match e.channel with
  | none => s
  | some c =>
    if s.linkIsUp = true ∧ e.state = .held ∧ s.sc.params.orphanFrames ≤ e.orphanCount then
      if (s.channel c).phase.inGroup = true then (s.claimGone c n .orphaned).getD s
      else (s.claimSilence c n).getD s
    else s

/-- PEER_SHADOW (R105): the mark is set and the event raised. -/
def State.takePeerShadow (s : State) (n : SlotNo) : State :=
  match (s.slot n).channel with
  | none => s
  | some c =>
    if s.peerShadowHolds n (s.channel c).phase = true then
      (s.modSlot n fun e => { e with peerShadow := true }).raise .peerShadow c
    else s

/-- A slot entry when the link leaves UP (R107). -/
def SlotEntry.linkLost (e : SlotEntry) : SlotEntry :=
  { e with orphanCount := 0, liveRun := 0, shadowRun := 0, peerAhead := false, peerShadow := false, followDue := false }

/-- SN when the link leaves UP (R107): the peer's notice is forgotten, and counts, runs and marks restart. -/
def State.noticesLinkLost (s : State) : State :=
  { s with sn := { s.sn with
      peer := none
      slots := Assoc.mapValues (fun _ e => e.linkLost) s.sn.slots } }

end Sys2Proof.Machine
end

