-- ==== Sys2Proof/Machine/Carrier.lean ====
section
/-! DEFINITION. The carrier link: transmitter, receiver and link monitor (chapter 4), with what LINK_UP, LINK_DOWN and
HUNT_LOSS do when they are taken. -/

namespace Sys2Proof.Machine

/-! ## Sending (R67 to R71) -/

/-- The notice field SN gives (R71). The number of a header without a notice is a free value (R176; log 10). -/
def State.noticeField (s : State) : NoticeField :=
  match s.sn.outstanding with
  | none => ⟨none, Config.idleNoticeNumber s.freeUsed, 0, 0, 0⟩
  | some o => ⟨some o.kind, o.number, o.slot, o.label, BitVec.ofNat 8 o.countdown⟩

/-- The reply field SN gives (R71). -/
def State.replyField (s : State) : Option ReplyField := s.sn.peer.map fun p => ⟨p.number, p.reply⟩

/-- The record of one channel for the frame just ended (R70): `live` when its TAP was LIVE. -/
def State.recordFor (s : State) (c : Channel) (n : SlotNo) (live : Bool) : SlotRecord :=
  match Assoc.find s.cl.captures c with
  | some x => ⟨n, x.word, live, x.damaged, false⟩
  | none => ⟨n, s.idleOf c, live, true, false⟩

/-- Add the record of one channel, by its slot, if it gives one (R69): its TAP in the ended frame was not NONE, and its
record names a slot when the frame is built. -/
def State.addRecord (s : State) (acc : Assoc SlotNo SlotRecord) (old : Channel × ChannelRecord) :
    Assoc SlotNo SlotRecord :=
  match old.2.active.tap, (s.channel old.1).slot with
  | .none, _ => acc
  | _, none => acc
  | .shadow, some n => Assoc.put acc n (s.recordFor old.1 n false)
  | .live, some n => Assoc.put acc n (s.recordFor old.1 n true)

/-- Set LAST on the last record. -/
def markLast : List SlotRecord → List SlotRecord
  | [] => []
  | [r] => [{ r with last := true }]
  | r :: t => r :: markLast t

/-- The records of the frame, in ascending order of slot (R69). `ended` holds the channel records of the frame just
ended. -/
def State.frameRecords (s : State) (ended : Assoc Channel ChannelRecord) : List SlotRecord :=
  markLast ((ended.foldl s.addRecord []).map Prod.snd)

/-- The carrier frame of this boundary (R67). The own role is present in RUNNING (R171;
log 9). -/
def State.buildFrame (s : State) (ended : Assoc Channel ChannelRecord) : CarrierFrame where
  number := s.ft.frameNumber
  role := s.cl.role.getD (if Config.absentRoleIsFollow s.freeUsed = true then .follow else .lead)
  notice := s.noticeField
  reply := s.replyField
  records := s.frameRecords ended

/-- The outstanding notice is carried for the first time (R91, R96). -/
def Outstanding.sentFirst (o : Outstanding) : Outstanding :=
  if o.firstSent.isNone = true then { o with firstSent := some (o.countdown, 0) } else o

/-- Build and send the frame of this boundary; the captures are discarded (R67, R68). -/
def State.sendFrame (s : State) (ended : Assoc Channel ChannelRecord) : State :=
  { s with
    cl := { s.cl with sending := some (s.buildFrame ended), captures := [] }
    sn := { s.sn with outstanding := s.sn.outstanding.map Outstanding.sentFirst }
    freeUsed := s.freeUsed + 1 }

/-! ## Receiving (R72 to R75) -/

/-- The link back to DARK, its counts at their start. -/
def State.goDark (s : State) : State :=
  { s with cl := { s.cl with link := .dark, lossCount := 0, huntCount := 0, lastNumber := none } }

/-- An invalid frame (R73, R80): the latches are emptied, the mark becomes NONE, and HUNTING ends. -/
def State.takeInvalid (s : State) : State :=
  let t := { s with
    sn := { s.sn with slots := Assoc.mapValues (fun _ e => { e with latch := none }) s.sn.slots }
    cl := { s.cl with markGood := false } }
  if s.cl.link = .hunting then t.goDark else t

/-- The arrival of a record (R75). -/
def ReceivedRecord.arrival (r : ReceivedRecord) : Arrival :=
  if r.checkGood = true then ⟨r.fields.word, r.fields.damaged, if r.fields.live = true then .live else .shadow⟩
  else ⟨r.fields.word, true, .unknown⟩

/-- One record stored (R75). -/
def State.storeRecord (s : State) (r : ReceivedRecord) : State :=
  if (s.slot r.fields.slot).inUse = true then s.modSlot r.fields.slot fun e => { e with latch := some r.arrival }
  else s

/-- The kind of the last record of each slot that a frame carries (R74). -/
def namedKinds (records : List ReceivedRecord) : Assoc SlotNo ArrivalKind :=
  records.foldl (fun acc r => Assoc.put acc r.fields.slot r.arrival.kind) []

/-- The header and the records of a valid frame taken while the link is UP (R74, steps 3 and 4). DESIGN CHOICE (log 31):
R164 lets the events of the reply and of the report enter in either order; a JOIN_FAILED or CUT_FAILED that the reply
brings due stays due behind the report, so PEER_AHEAD enters before it, unless the header has a new notice. -/
def State.useFrame (s : State) (f : ReceivedFrame) : State :=
  let t := (s.takeReply f.reply).takeNotice f.notice
  let t := f.records.foldl State.storeRecord t
  State.report { t with cl := { t.cl with markGood := true } } (namedKinds f.records)

/-- A clashing frame (R79). -/
def State.takeClash (s : State) : State :=
  let t := { s with cl := { s.cl with clash := true } }
  let t := if s.cl.clash = true then t else t.raise .roleClash 0
  if s.cl.link = .hunting then { t with cl := { t.cl with huntCount := 0, lastNumber := none } } else t

/-- A valid frame that does not clash (R77, R78). The third frame of a run brings LINK_UP due, with the frame in
hand. -/
def State.takeValid (s : State) (f : ReceivedFrame) : State :=
  let t := { s with cl := { s.cl with clash := false, lastNumber := some f.number } }
  match s.cl.link with
  | .dark => { t with cl := { t.cl with link := .hunting, huntCount := 1, lossCount := 0 } }
  | .hunting =>
    let hunt := if s.cl.lastNumber.map (· + 1) = some f.number then s.cl.huntCount + 1 else 1
    let t := { t with cl := { t.cl with huntCount := hunt } }
    if Config.huntLimit ≤ hunt then State.addDue { t with cl := { t.cl with inHand := some f } } .linkUp else t
  | .up => t.useFrame f

/-- A frame arrival in RUNNING (R72 to R74). -/
def State.takeArrival (s : State) (bytes : List Byte) : State :=
  match readFrame bytes with
  | none => s.takeInvalid
  | some f =>
    let t := { s with cl := { s.cl with peerRole := some f.role } }
    if s.cl.role = some f.role then t.takeClash else t.takeValid f

/-! ## The link monitor -/

/-- The loss count at a boundary, by the reception mark of the ending frame, which then becomes NONE (R76, R80). The
count of 16 brings LINK_DOWN or HUNT_LOSS due. -/
def CarrierLink.countLoss (x : CarrierLink) : CarrierLink :=
  { x with
    markGood := false
    lossCount :=
      if x.link = .dark then x.lossCount
      else if x.markGood = true then 0
      else min Config.lossLimit (x.lossCount + 1) }

/-- LINK_UP (R78): the link goes UP, and the frame in hand is the first used (R74). -/
def State.takeLinkUp (s : State) : State :=
  match s.cl.link, s.cl.inHand with
  | .hunting, some f =>
    let t := { s with cl := { s.cl with link := .up, lossCount := 0, huntCount := 0, inHand := none } }
    (t.raise .linkUp 0).useFrame f
  | _, _ => s

/-- LINK_DOWN (R81): the link goes DARK, the event, the carrier-loss claim, and SN is told. -/
def State.takeLinkDown (s : State) : State :=
  if s.linkIsUp = true ∧ Config.lossLimit ≤ s.cl.lossCount then
    ((s.goDark.raise .linkDown 0).claimCarrierLoss).noticesLinkLost
  else s

/-- HUNT_LOSS (R80). -/
def State.takeHuntLoss (s : State) : State :=
  if s.cl.link = .hunting ∧ Config.lossLimit ≤ s.cl.lossCount then s.goDark else s

end Sys2Proof.Machine
end

