-- ==== Sys2Proof/Machine/Proof.lean ====
section
/-! DEFINITION. The hand-over of a copper word, the scoreboard, and watching at the proven lag (sections 3.5 to 3.7),
with what PROOF_SUCCESS, PROOF_FAILURE and DEMOTION do when they are taken. -/

namespace Sys2Proof.Machine

/-- A run counter after one comparison (R56). -/
def runAfter (word : Pattern) (entry : Option Pattern) (run : Nat) : Nat :=
  match entry with
  | none => run
  | some w => if w = word then min 255 (run + 1) else 0

/-- The scoreboard after the comparisons of one active hand-over (R56). -/
def Context.compared (x : Context) (word : Pattern) : Context :=
  { x with
    runs := List.zipWith (runAfter word) x.delay x.runs
    activeSeen := if x.delay.any Option.isSome = true then min Config.proofLimit (x.activeSeen + 1) else x.activeSeen
    lastCopper := some word }

/-- The smallest lag whose run counter is at or above ProveRun (R57). -/
def Context.provenLag (x : Context) (proveRun : Nat) : Option Lag :=
  (x.runs.findIdx? fun r => decide (proveRun ≤ r)).map (Fin.ofNat 16)

/-- An active hand-over in SHADOW (R56 to R58). With all sixteen entries HOLD nothing is compared and no test is made
(R56, R63). -/
def State.prove (s : State) (c : Channel) (k : CtxNo) (x : Context) (word : Pattern) : State :=
  let y := x.compared word
  let t := s.setContext k y
  if x.delay.any Option.isSome = true then
    match y.provenLag s.sc.params.proveRun with
    | some lag => t.addDue (.proofSuccess c k lag)
    | none => if Config.proofLimit ≤ y.activeSeen then t.addDue (.proofFailure c k) else t
  else t

/-- The mismatch streak after one comparison at the proven lag (R60). -/
def streakAfter (word : Pattern) (entry : Option Pattern) (streak : Nat) : Nat :=
  match entry with
  | none => streak
  | some w => if w = word then 0 else min Config.streakLimit (streak + 1)

/-- An active hand-over in PROVEN or CUTTING (R60). -/
def State.watch (s : State) (c : Channel) (k : CtxNo) (x : Context) (word : Pattern) : State :=
  let entry := x.delay.getD (s.channel c).lag.val none
  let streak := streakAfter word entry x.streak
  let t := s.setContext k { x with streak := streak, lastCopper := some word }
  if Config.streakLimit ≤ streak ∧ x.streak < streak then t.addDue (.demotion c k) else t

/-- The hand-over of a copper word to a context (R55). -/
def State.handOver (s : State) (c : Channel) (k : CtxNo) (word : Pattern) (good : Bool) : State :=
  match s.context k with
  | none => s
  | some x =>
    if x.owner = c ∧ good = true then
      if x.lastCopper = some word then s
      else if x.lastCopper = none then s.setContext k { x with lastCopper := some word }
      else
        match (s.channel c).phase with
        | .shadow => s.prove c k x word
        | .proven => s.watch c k x word
        | .cutting => s.watch c k x word
        | _ => s.setContext k { x with lastCopper := some word }
    else s

/-- PROOF_SUCCESS (R57): the claim; a stale one makes no further change. -/
def State.takeProofSuccess (s : State) (c : Channel) (k : CtxNo) (lag : Lag) : State :=
  (s.claimProofSuccess c k lag).getD s

/-- PROOF_FAILURE (R58). -/
def State.takeProofFailure (s : State) (c : Channel) (k : CtxNo) : State := (s.claimProofFailure c k).getD s

/-- DEMOTION (R60, R61). -/
def State.takeDemotion (s : State) (c : Channel) (k : CtxNo) : State := (s.claimDemotion c k).getD s

end Sys2Proof.Machine
end

