-- ==== Sys2Proof/Machine/Store.lean ====
section
/-! DEFINITION. The store controller in RUNNING: the store queue, the write in flight, its stages, failure and
reinstatement (chapter 8). -/

namespace Sys2Proof.Machine

/-- The device address byte for writing: 1010000b and direction 0 (R141). -/
def deviceWrite : Byte := 0xA0#8

/-- The device address byte for reading. -/
def deviceRead : Byte := 0xA1#8

/-- Bytes sent on the line. -/
def sendAll (bytes : List Byte) : List LineEvent := bytes.map LineEvent.send

/-- The two bytes of a memory address, most significant first. -/
def addressBytes (a : Nat) : List Byte := wordBytes (BitVec.ofNat 16 a)

/-- `n` bytes read, each acknowledged but the last (R147, R168). -/
def receiveAll : Nat → List LineEvent
  | 0 => []
  | 1 => [.receive false]
  | n + 2 => .receive true :: receiveAll (n + 1)

/-- SC releases the data line and then the clock line, as R150 says of a part reset. DESIGN CHOICE (log 34): the same
order when it releases the line after a missing acknowledge or a failed load (R141, R172), where no rule gives one. -/
def releaseLine : List LineEvent := [.releaseData, .releaseClock]

/-- A missing acknowledge ends the transfer with a stop condition and releases the line (R141). -/
def stopAndRelease : List LineEvent := .stop :: releaseLine

/-- The page write of a record (R145). -/
def pageWriteLine (n : SlotNo) (bytes : List Byte) : List LineEvent :=
  [.start, .send deviceWrite] ++ sendAll (addressBytes (recordAddress n)) ++ sendAll bytes ++ [.stop]

/-- A poll that is not acknowledged (R146). -/
def pollLine : List LineEvent := [.start, .send deviceWrite, .stop]

/-- The read-back, in the transfer that the acknowledged poll opened (R147). -/
def readBackLine (n : SlotNo) : List LineEvent :=
  sendAll (addressBytes (recordAddress n)) ++ [.repeatedStart, .send deviceRead] ++ receiveAll 8 ++ [.stop]

/-- The transfer that a write in flight makes in its stage. -/
def Flight.transfer (f : Flight) : List LineEvent :=
  match f.stage with
  | .program => pageWriteLine f.request.slot (writtenRecord f.request f.purpose)
  | .poll => pollLine
  | .verify => readBackLine f.request.slot
  | .pause _ => []

/-- What SC has put on the line of a transfer that ends at a missing acknowledge (R141, R145): the byte that is not
acknowledged is the last it sent; the clock held low keeps it from the next event, and the data line held low from a
start condition. None when the transfer has no such point there. -/
def cutOff (x : MissingAck) (transfer : List LineEvent) : Option (List LineEvent) :=
  match x.cause, transfer[x.place]? with
  | .byteNotAcknowledged, some (.send _) => some (transfer.take (x.place + 1))
  | .clockHeldLow, some e => if e = .start then none else some (transfer.take x.place)
  | .dataHeldLow, some e => if e = .start ∨ e = .repeatedStart then some (transfer.take x.place) else none
  | _, _ => none

/-- A page that the store has programmed as it was sent. -/
def RetirementStore.commit (x : RetirementStore) : RetirementStore :=
  match x.programming with
  | none => x
  | some (n, bytes) => ⟨x.cells.writeBytes (recordAddress n) bytes, none⟩

/-- A page that the store has programmed with some bits wrong (R148; log 7). -/
def RetirementStore.commitWith (x : RetirementStore) (wrong : BitVec 64) : RetirementStore :=
  match x.programming with
  | none => x
  | some (n, bytes) => ⟨x.cells.writeBytes (recordAddress n) (invertBits bytes wrong), none⟩

/-- Put a write in flight, or none. -/
def State.setFlight (s : State) (f : Option Flight) : State := { s with sc := { s.sc with flight := f } }

/-- The store fault set or cleared. -/
def State.setFault (s : State) (b : Bool) : State := { s with sc := { s.sc with fault := b } }

/-- STORE_WRITE_START (R144): with no write in flight, the head request starts as a TARGET write in PROGRAM. -/
def State.takeStoreWriteStart (s : State) : State :=
  match s.sc.flight, s.sc.queue with
  | none, r :: rest => { s with sc := { s.sc with queue := rest, flight := some ⟨r, .target, .program⟩ } }
  | _, _ => s

/-- A failed attempt (R148): a TARGET write turns to REINSTATEMENT in PROGRAM; a REINSTATEMENT write pauses. -/
def State.attemptFailed (s : State) (f : Flight) : State :=
  match f.purpose with
  | .target => (s.setFault true).setFlight (some { f with purpose := .reinstatement, stage := .program })
  | .reinstatement => (s.setFault true).setFlight (some { f with stage := .pause Config.pauseFrames })

/-- A verified write (R147, R148): its claim, and the next head. -/
def State.writeVerified (s : State) (f : Flight) : State :=
  match f.purpose with
  | .target =>
    let t := (s.setFault false).setFlight none
    State.kickStore ((t.claimStoreDone f.request.channel).getD t)
  | .reinstatement =>
    let t := s.setFlight none
    State.kickStore ((t.claimStoreFailed f.request.channel).getD t)

/-- The page write has ended with its stop condition (R145). A page still being programmed has finished by then
(log 21). -/
def State.endPageWrite (s : State) (f : Flight) : State :=
  let bytes := writtenRecord f.request f.purpose
  let n := f.request.slot
  let x := s.store.commit
  State.drive { (s.setFlight (some { f with stage := .poll })) with store := { x with programming := some (n, bytes) } }
    (pageWriteLine n bytes)

/-- One poll in POLL (R146). An address that is not acknowledged is a missing acknowledge: it ends the transfer with a
stop condition, and the line is released (R141). -/
def State.pollStore (s : State) (f : Flight) (answer : PollAnswer) : State :=
  match answer with
  | .noAck => s.drive ([.start, .send deviceWrite] ++ stopAndRelease)
  | .acked wrong =>
    State.drive { (s.setFlight (some { f with stage := .verify })) with store := s.store.commitWith wrong }
      [.start, .send deviceWrite]

/-- The eight bytes SC reads back of a record it has written (R147; log 7). By R142 a channel enters RETIRED only with
its record in the store, so a record that the store holds otherwise than it was written never reads back as written:
the line disturbs the read-back of a page programmed well, as section 8.4 has it (log 36). -/
def State.readBack (s : State) (n : SlotNo) (written : List Byte) (disturbed : BitVec 64) : List Byte :=
  let stored := s.store.cells.readBytes (recordAddress n) 8
  if stored = written then invertBits stored disturbed else stored

/-- The read-back and its comparison (R147). -/
def State.verifyStore (s : State) (f : Flight) (disturbed : BitVec 64) : State :=
  let n := f.request.slot
  let written := writtenRecord f.request f.purpose
  let t := s.drive (readBackLine n)
  if s.readBack n written disturbed = written then t.writeVerified f else t.attemptFailed f

/-- The write in flight, in a stage of the line, while the part is RUNNING. -/
def State.flightIn (s : State) (stage : Stage) : Option Flight :=
  match s.sc.flight with
  | none => none
  | some f => if s.part = .running ∧ s.resetHeld = false ∧ f.stage = stage then some f else none

/-- The store once `place` line events of the transfer have come. In a page write two of them, the start condition and
the device address, show that the store has acknowledged its address, so it has finished an earlier page (R146; log
21). -/
def State.storeAt (s : State) (place : Nat) : RetirementStore :=
  match s.flightIn .program with
  | none => s.store
  | some _ => if 2 ≤ place then s.store.commit else s.store

/-- PAGE_WRITE_END (R145). -/
def State.pageWriteEnd (s : State) : State :=
  match s.flightIn .program with
  | none => s
  | some f => s.endPageWrite f

/-- STORE_POLL (R146). -/
def State.storePoll (s : State) (answer : PollAnswer) : State :=
  match s.flightIn .poll with
  | none => s
  | some f => s.pollStore f answer

/-- POLL_TIMEOUT (R146): the attempt has failed. -/
def State.pollTimeout (s : State) : State :=
  match s.flightIn .poll with
  | none => s
  | some f => (s.drive []).attemptFailed f

/-- STORE_VERIFY (R147). -/
def State.storeVerify (s : State) (disturbed : BitVec 64) : State :=
  match s.flightIn .verify with
  | none => s
  | some f => s.verifyStore f disturbed

/-- MISSING_ACK during a write (R145, R147), after SC has `sent` a part of the transfer: it ends there, and the attempt
fails in PROGRAM and VERIFY. In POLL it is an unacknowledged poll (R146; log 18). In PAUSE there is no transfer.
DESIGN CHOICE (log 37): a clock held low after the eighth data byte leaves the record as it was, though the stop condition
that then ends the transfer would complete it. DESIGN CHOICE (log 38): a line held low in POLL is one more unacknowledged
poll, though its 50 ms outlast the 20 ms of POLL; the attempt fails with POLL_TIMEOUT. -/
def State.writeMissingAck (s : State) (f : Flight) (sent : List LineEvent) : State :=
  match f.stage with
  | .program => (s.drive (sent ++ stopAndRelease)).attemptFailed f
  | .verify => (s.drive (sent ++ stopAndRelease)).attemptFailed f
  | .poll => s.drive (sent ++ stopAndRelease)
  | .pause _ => s

/-- PAUSE at a boundary (R148): one less; at 0 REINSTATEMENT_RETRY comes due. -/
def State.pauseStep (s : State) : State × Bool :=
  match s.sc.flight with
  | some ⟨r, p, .pause (n + 1)⟩ => (s.setFlight (some ⟨r, p, .pause n⟩), decide (n = 0))
  | _ => (s, false)

/-- REINSTATEMENT_RETRY (R148): the same write starts again in PROGRAM. -/
def State.takeReinstatementRetry (s : State) : State :=
  match s.sc.flight with
  | some ⟨r, p, .pause 0⟩ => s.setFlight (some ⟨r, p, .program⟩)
  | _ => s

end Sys2Proof.Machine
end

