-- ==== Sys2Proof/Machine/Own.lean ====
section
/-! DEFINITION. The part's own steps: what each does when it is taken, how those that are due are taken before a command
from outside (log 1), and the meanings of their rows. -/

namespace Sys2Proof.Machine

/-- What an own step does when it is taken. The last PEER_SHADOW or ORPHAN_TEST of a report is followed by the heard
claims that waited behind it (R89; log 25). -/
def effect (d : Due) (s : State) : State :=
  match d with
  | .contextAssign => s.assignContexts
  | .noticeOutstanding => s.makeOutstanding
  | .joinTimeout c k => s.takeJoinTimeout c k
  | .retryGapEnd c k => s.takeRetryGapEnd c k
  | .barClockExpiry n => s.takeBarClockExpiry n
  | .cutDue c n => s.takeCutDue c n
  | .followCut c n => s.takeFollowCut c n
  | .guardEnd c => s.takeGuardEnd c
  | .slotSilent c => s.takeSlotSilent c
  | .linkDown => s.takeLinkDown
  | .huntLoss => s.takeHuntLoss
  | .linkUp => s.takeLinkUp
  | .orphanTest n => (s.takeOrphanTest n).takeHeard
  | .peerShadow n => (s.takePeerShadow n).takeHeard
  | .proofSuccess c k lag => s.takeProofSuccess c k lag
  | .proofFailure c k => s.takeProofFailure c k
  | .demotion c k => s.takeDemotion c k
  | .cutFailed c n => s.takeCutFailed c n
  | .joinFailed c => s.takeJoinFailed c
  | .noticeExpiry number => s.takeNoticeExpiry number
  | .storeWriteStart => s.takeStoreWriteStart
  | .reinstatementRetry => s.takeReinstatementRetry
  | .heard n => s.hear n
  | .passed => s

/-- Take the own steps that are due, in the order they came due, at most `n` of them (log 1). Any beyond these, which no
run has, are dropped (log 20). -/
def settle : Nat → State → State
  | 0, s => { s with due := [] }
  | n + 1, s =>
    match s.due with
    | [] => s
    | d :: rest => settle n (effect d { s with due := rest })

/-- The part with its due own steps taken: none is due then. -/
def State.settled (s : State) : State := settle Config.settleBound s

/-- The row of an own step: it is taken if it is due, and changes nothing otherwise (log 1). -/
def own (d : Due) (s : State) : State :=
  if d ∈ s.due then effect d { s with due := s.due.erase d } else s

/-! ## The rows -/

/-- CONTEXT_ASSIGN (R50). -/
def execContextAssign (s : State) : Host.Outcome State Fault Refusal := .next (own .contextAssign s)

/-- NOTICE_OUTSTANDING (R91). -/
def execNoticeOutstanding (s : State) : Host.Outcome State Fault Refusal := .next (own .noticeOutstanding s)

/-- JOIN_TIMEOUT (R52, R31). -/
def execJoinTimeout (c : Channel) (k : CtxNo) (s : State) : Host.Outcome State Fault Refusal :=
  .next (own (.joinTimeout c k) s)

/-- RETRY_GAP_END (R98). -/
def execRetryGapEnd (c : Channel) (k : CtxNo) (s : State) : Host.Outcome State Fault Refusal :=
  .next (own (.retryGapEnd c k) s)

/-- BAR_CLOCK_EXPIRY (R87). -/
def execBarClockExpiry (n : SlotNo) (s : State) : Host.Outcome State Fault Refusal := .next (own (.barClockExpiry n) s)

/-- CUT_DUE (R99, R111). -/
def execCutDue (c : Channel) (n : SlotNo) (s : State) : Host.Outcome State Fault Refusal := .next (own (.cutDue c n) s)

/-- FOLLOW_CUT (R104, R111). -/
def execFollowCut (c : Channel) (n : SlotNo) (s : State) : Host.Outcome State Fault Refusal :=
  .next (own (.followCut c n) s)

/-- GUARD_END (R113). -/
def execGuardEnd (c : Channel) (s : State) : Host.Outcome State Fault Refusal := .next (own (.guardEnd c) s)

/-- SLOT_SILENT (R117). -/
def execSlotSilent (c : Channel) (s : State) : Host.Outcome State Fault Refusal := .next (own (.slotSilent c) s)

/-- LINK_DOWN (R81). -/
def execLinkDown (s : State) : Host.Outcome State Fault Refusal := .next (own .linkDown s)

/-- HUNT_LOSS (R80). -/
def execHuntLoss (s : State) : Host.Outcome State Fault Refusal := .next (own .huntLoss s)

/-- LINK_UP (R78). -/
def execLinkUp (s : State) : Host.Outcome State Fault Refusal := .next (own .linkUp s)

/-- ORPHAN_TEST (R106). -/
def execOrphanTest (n : SlotNo) (s : State) : Host.Outcome State Fault Refusal := .next (own (.orphanTest n) s)

/-- PEER_SHADOW (R105). -/
def execPeerShadow (n : SlotNo) (s : State) : Host.Outcome State Fault Refusal := .next (own (.peerShadow n) s)

/-- PROOF_SUCCESS (R57, R32). -/
def execProofSuccess (c : Channel) (k : CtxNo) (lag : Lag) (s : State) : Host.Outcome State Fault Refusal :=
  .next (own (.proofSuccess c k lag) s)

/-- PROOF_FAILURE (R58, R32). -/
def execProofFailure (c : Channel) (k : CtxNo) (s : State) : Host.Outcome State Fault Refusal :=
  .next (own (.proofFailure c k) s)

/-- DEMOTION (R60, R61, R33). -/
def execDemotion (c : Channel) (k : CtxNo) (s : State) : Host.Outcome State Fault Refusal :=
  .next (own (.demotion c k) s)

/-- CUT_FAILED (R96, R35). -/
def execCutFailed (c : Channel) (n : SlotNo) (s : State) : Host.Outcome State Fault Refusal :=
  .next (own (.cutFailed c n) s)

/-- JOIN_FAILED (R95, R31). -/
def execJoinFailed (c : Channel) (s : State) : Host.Outcome State Fault Refusal := .next (own (.joinFailed c) s)

/-- NOTICE_EXPIRY (R92). -/
def execNoticeExpiry (number : BitVec 4) (s : State) : Host.Outcome State Fault Refusal :=
  .next (own (.noticeExpiry number) s)

/-- STORE_WRITE_START (R144). -/
def execStoreWriteStart (s : State) : Host.Outcome State Fault Refusal := .next (own .storeWriteStart s)

/-- REINSTATEMENT_RETRY (R148). -/
def execReinstatementRetry (s : State) : Host.Outcome State Fault Refusal := .next (own .reinstatementRetry s)

/-! ## Rows from outside that act on the carrier link and on the retirement store -/

/-- FRAME_ARRIVAL (R72): not judged outside RUNNING, nor while the reset lasts. -/
def execFrameArrival (bytes : List Byte) (s : State) : Host.Outcome State Fault Refusal :=
  let t := s.settled
  .next (if t.part = .running ∧ t.resetHeld = false then t.takeArrival bytes else t)

/-- FRAME_SENT (R71, R92). -/
def execFrameSent (s : State) : Host.Outcome State Fault Refusal := .next s.settled.reportSent

/-- PAGE_WRITE_END (R145). -/
def execPageWriteEnd (s : State) : Host.Outcome State Fault Refusal := .next s.settled.pageWriteEnd

/-- STORE_POLL (R146). -/
def execStorePoll (answer : PollAnswer) (s : State) : Host.Outcome State Fault Refusal :=
  .next (s.settled.storePoll answer)

/-- POLL_TIMEOUT (R146). -/
def execPollTimeout (s : State) : Host.Outcome State Fault Refusal := .next s.settled.pollTimeout

/-- STORE_VERIFY (R147). -/
def execStoreVerify (disturbed : BitVec 64) (s : State) : Host.Outcome State Fault Refusal :=
  .next (s.settled.storeVerify disturbed)

end Sys2Proof.Machine
end

