-- ==== Sys2Proof/Machine/Directive.lean ====
section
/-! DEFINITION. The directive unit: directive writes (R152, R153), the run of a directive or step (R154 to R162), and
the side effects of report reads (R160, R163, R164). -/

namespace Sys2Proof.Machine

/-- Change DU. -/
def State.modDu (s : State) (f : DirectiveUnit → DirectiveUnit) : State := { s with du := f s.du }

/-! ## Directive writes -/

/-- A good write to a parameter word (R152). -/
def Latch.write (w : Word) : Latch := ⟨w, false⟩

/-- A bad write to a parameter word (R152): the old value stays, in doubt. -/
def Latch.spoil (x : Latch) : Latch := { x with doubt := true }

/-- The latch of Dn changed, n from 1 to 4; no other word has a latch. -/
def Latches.mod (x : Latches) (n : Nat) (f : Latch → Latch) : Latches :=
  match n with
  | 1 => { x with d1 := f x.d1 }
  | 2 => { x with d2 := f x.d2 }
  | 3 => { x with d3 := f x.d3 }
  | 4 => { x with d4 := f x.d4 }
  | _ => x

/-- The mask after a D7 write (R152, R175): bit 8 + n enables value bit n. -/
def maskAfter (mask : BitVec 4) (w : Word) : BitVec 4 :=
  let enables : BitVec 4 := w.extractLsb' 8 4
  let values : BitVec 4 := w.extractLsb' 0 4
  (mask &&& ~~~enables) ||| (values &&& enables)

/-- A good D0 write (R153): it starts a directive and ends step mode, or sets OVERRUN. -/
def DirectiveUnit.command (d : DirectiveUnit) (w : Word) : DirectiveUnit :=
  if d.busy = true then { d with overrun := true }
  else { d with inProgress := some ⟨d0Code w, d0Step w, d0Tag w, d.latches, none⟩, stepMode := none }

/-- A directive write given to DU (R16, R152): the offset, 0 to 7, and the word with its parity. -/
def DirectiveUnit.take (d : DirectiveUnit) (offset : Nat) (w : BusWord) : DirectiveUnit :=
  if parityGood w = true then
    match offset with
    | 0 => d.command w.data
    | 7 => { d with mask := maskAfter d.mask w.data }
    | n => { d with latches := d.latches.mod n fun _ => Latch.write w.data }
  else { d with parity := true, latches := d.latches.mod offset Latch.spoil }

/-! ## The run -/

/-- The last number of a step kind (R160). -/
def StepKind.last : StepKind → Nat
  | .inspect => 2047
  | .slotview => 1023

/-- The results of a step kind for a number. -/
def State.viewResults (s : State) (k : StepKind) (n : Nat) : Results :=
  match k with
  | .inspect => s.inspectResults (Fin.ofNat 2048 n)
  | .slotview => s.slotviewResults (Fin.ofNat 1024 n)

/-- Completion (R154). -/
def State.complete (s : State) (d : Directive) (o : DirectiveOutcome) (r : Results) : State :=
  s.modDu fun x => { x with results := r, outcome := o, tag := d.tag, inProgress := none, doneSource := true }

/-- A refusal that fills no result. -/
def State.refuse (s : State) (d : Directive) (o : DirectiveOutcome) : State := s.complete d o .zero

/-- The end of a single-channel directive with D1 in range (R157): RP1 holds the phase word after the run. -/
def State.completeChannel (s : State) (d : Directive) (c : Channel) (o : DirectiveOutcome) : State :=
  s.complete d o { Results.zero with rp1 := (s.channel c).phaseWord }

/-- The end of a claim: PHASE when it is stale. -/
def State.completeClaim (s : State) (d : Directive) (c : Channel) (claim : Option State) : State :=
  match claim with
  | some t => t.completeChannel d c .done
  | none => s.completeChannel d c .phase

/-- A label of a range is held by a channel outside COPPER (R155, LABEL). -/
def State.labelTaken (s : State) (label : Nat) : Nat → Bool
  | 0 => false
  | count + 1 => (s.channelOfLabel (BitVec.ofNat 16 label)).isSome || State.labelTaken s (label + 1) count

/-- The idle pattern of ENROL (R155, R175): that of D4 when its flag is set, else the default. -/
def State.enrolIdle (s : State) (d4 : Word) : Pattern := if d4.msb = true then sampleOf d4 else s.sc.params.idle

/-- ENROL (R155). -/
def State.runEnrol (s : State) (d : Directive) : State :=
  let first := d.copies.d1.value.toNat
  let count := d.copies.d2.value.toNat
  let label := d.copies.d3.value.toNat
  if count = 0 ∨ 32 < count ∨ 2047 < first + count - 1 ∨ 65535 < label + count - 1 then s.refuse d .range
  else if s.labelTaken label count = true then s.refuse d .label
  else if Config.channelBound < s.outsideCopper + count then s.refuse d .full
  else
    let (t, taken, skipped) := s.enrolRange first label (s.enrolIdle d.copies.d4.value) count
    t.complete d .done { Results.zero with rp1 := BitVec.ofNat 16 taken, rp2 := BitVec.ofNat 16 skipped }

/-- The channel D1 names, if it is in range. -/
def Directive.channel (d : Directive) : Option Channel :=
  if d.copies.d1.value.toNat ≤ 2047 then some (Fin.ofNat 2048 d.copies.d1.value.toNat) else none

/-- CUT (R156). -/
def State.runCut (s : State) (d : Directive) : State :=
  match d.channel with
  | none => s.refuse d .range
  | some c => if s.linkIsUp = true then s.completeClaim d c (s.claimCut c) else s.completeChannel d c .link

/-- The store queue is full (R143). -/
def State.storeFull (s : State) : Bool := decide (Config.storeCapacity ≤ s.sc.queue.length)

/-- RETIRE (R156). -/
def State.runRetire (s : State) (d : Directive) : State :=
  match d.channel with
  | none => s.refuse d .range
  | some c =>
    if s.linkIsUp = true then
      if s.storeFull = true then s.completeChannel d c .full else s.completeClaim d c (s.claimRetire c)
    else s.completeChannel d c .link

/-- RECALL (R157). -/
def State.runRecall (s : State) (d : Directive) : State :=
  match d.channel with
  | none => s.refuse d .range
  | some c => if s.storeFull = true then s.completeChannel d c .full else s.completeClaim d c (s.claimRecall c)

/-- 32 LEAVE requests wait in the notice queue (R157). -/
def State.leavesFull (s : State) : Bool :=
  decide (Config.leaveCapacity ≤ (s.sn.queue.filter fun r => decide (r.kind = .leave)).length)

/-- WITHDRAW (R157). -/
def State.runWithdraw (s : State) (d : Directive) : State :=
  match d.channel with
  | none => s.refuse d .range
  | some c =>
    if (s.channel c).phase.inGroup = true ∧ s.leavesFull = true then s.completeChannel d c .full
    else s.completeClaim d c (s.claimWithdraw c)

/-- The end of INSPECT or SLOTVIEW, or of a step: the results of a number, and step mode when STEP is set (R158 to
R160). -/
def State.completeView (s : State) (d : Directive) (k : StepKind) (n : Nat) (stepping : Bool) : State :=
  let t := s.complete d .done (s.viewResults k n)
  if stepping = true then t.modDu fun x => { x with stepMode := some ⟨k, n, d.tag⟩ } else t

/-- INSPECT and SLOTVIEW (R158, R159). -/
def State.runView (s : State) (d : Directive) (k : StepKind) : State :=
  if d.copies.d1.value.toNat ≤ k.last then s.completeView d k d.copies.d1.value.toNat d.step else s.refuse d .range

/-- The value of a parameter, by its id (R161). -/
def Params.value (p : Params) (id : Nat) : Nat :=
  match id with
  | 1 => p.proveRun
  | 2 => p.quietLimit
  | 3 => p.guardFrames
  | 4 => p.noticeLead
  | 5 => p.noticeWait
  | 6 => p.joinWait
  | 7 => p.orphanFrames
  | 8 => p.holdLimit
  | 9 => p.idle.toNat
  | _ => 0

/-- The set with one value replaced, if the id and the value are in range (R161). -/
def Params.set? (p : Params) (id v : Nat) : Option Params :=
  match id with
  | 1 => if 8 ≤ v ∧ v ≤ 255 then some { p with proveRun := v } else none
  | 2 => if v ≤ 31 then some { p with quietLimit := v } else none
  | 3 => if v ≤ 63 then some { p with guardFrames := v } else none
  | 4 => if 8 ≤ v ∧ v ≤ 200 then some { p with noticeLead := v } else none
  | 5 => if 100 ≤ v ∧ v ≤ 65535 then some { p with noticeWait := v } else none
  | 6 => if 100 ≤ v ∧ v ≤ 65535 then some { p with joinWait := v } else none
  | 7 => if 100 ≤ v ∧ v ≤ 65535 then some { p with orphanFrames := v } else none
  | 8 => if 1 ≤ v ∧ v ≤ 63 then some { p with holdLimit := v } else none
  | 9 => if v < 4096 then some { p with idle := BitVec.ofNat 12 v } else none
  | _ => none

/-- SET (R161). -/
def State.runSet (s : State) (d : Directive) : State :=
  let id := d.copies.d1.value.toNat
  match s.sc.params.set? id d.copies.d2.value.toNat with
  | none => s.refuse d .range
  | some p =>
    State.complete { s with sc := { s.sc with params := p } } d .done
      { Results.zero with
        rp1 := d.copies.d1.value
        rp2 := BitVec.ofNat 16 (s.sc.params.value id)
        rp3 := BitVec.ofNat 16 (p.value id) }

/-- ABANDON (R162). -/
def State.runAbandon (s : State) (d : Directive) : State :=
  let (t, moved, freed) := s.claimAbandon
  t.complete d .done { Results.zero with rp1 := BitVec.ofNat 16 moved, rp2 := BitVec.ofNat 16 freed }

/-- A copy that the directive reads was in doubt when it started (R154, PARITY). -/
def Directive.inDoubt (d : Directive) : Bool :=
  let x := d.copies
  match d.code.toNat with
  | 1 => x.d1.doubt || x.d2.doubt || x.d3.doubt || x.d4.doubt
  | 8 => x.d1.doubt || x.d2.doubt
  | 9 => false
  | _ => x.d1.doubt

/-- The run of a directive started by a D0 write: CODE, PARITY, then its own checks (R154). -/
def State.runCommand (s : State) (d : Directive) : State :=
  if d.code.toNat = 0 ∨ 9 < d.code.toNat then s.refuse d .code
  else if d.inDoubt = true then s.refuse d .parity
  else
    match d.code.toNat with
    | 1 => s.runEnrol d
    | 2 => s.runCut d
    | 3 => s.runRetire d
    | 4 => s.runRecall d
    | 5 => s.runWithdraw d
    | 6 => s.runView d .inspect
    | 7 => s.runView d .slotview
    | 8 => s.runSet d
    | _ => s.runAbandon d

/-- The run of the directive or step in progress (R154, R160). Nothing runs without one. -/
def State.runDirective (s : State) : State :=
  match s.du.inProgress with
  | none => s
  | some d =>
    match d.stepOf with
    | none => s.runCommand d
    | some (k, n) => s.completeView d k n true

/-- DIRECTIVE_RUN (R154): taken after the own steps that are due, so the run meets the state they leave. -/
def execDirectiveRun (s : State) : Host.Outcome State Fault Refusal := .next s.settled.runDirective

/-! ## Side effects of report reads -/

/-- RP0 (R163). -/
def DirectiveUnit.readStatus (d : DirectiveUnit) : DirectiveUnit :=
  { d with overrun := false, parity := false, doneSource := false }

/-- RP6 (R160): in step mode with no directive in progress, start the step of the next number, or end step mode after
the last. DESIGN CHOICE (log 35): R160 gives a step its kind, tag and number, and no rule says what its STEP flag and its
copies of D1 to D4 hold; the flag is set, and the copies are the latches as they stand at the read. Its run uses
neither. -/
def DirectiveUnit.readStep (d : DirectiveUnit) : DirectiveUnit :=
  if d.busy = true then d
  else
    match d.stepMode with
    | none => d
    | some m =>
      if m.kind.last ≤ m.last then { d with stepMode := none }
      else
        { d with inProgress := some {
            code := match m.kind with
              | .inspect => 6
              | .slotview => 7
            step := true
            tag := m.tag
            copies := d.latches
            stepOf := some (m.kind, m.last + 1) } }

/-- RP7 (R164). -/
def DirectiveUnit.readEvent (d : DirectiveUnit) : DirectiveUnit := { d with events := d.events.tail }

/-- RP8 (R164). -/
def DirectiveUnit.readCount (d : DirectiveUnit) : DirectiveUnit := { d with lost := false }

/-- The side effect of a read of RPn (section 9.3). -/
def DirectiveUnit.reportRead (d : DirectiveUnit) (n : Nat) : DirectiveUnit :=
  match n with
  | 0 => d.readStatus
  | 6 => d.readStep
  | 7 => d.readEvent
  | 8 => d.readCount
  | _ => d

end Sys2Proof.Machine
end

