-- ==== Sys2Proof/Machine/Bus.lean ====
section
/-! DEFINITION. The bus interposer (chapter 1): classification, substitution, read pairing, directive writes and report
reads, and the rows of the bus accesses. -/

namespace Sys2Proof.Machine

/-! ## Ports -/

/-- A write carried to the store-side port with a word (R1). -/
def State.carryWrite (s : State) (m : Master) (a : Addr) (w : BusWord) : State :=
  { s with ports := { s.ports with storeSide := some (.write m a w) } }

/-- A read carried to the store-side port, and the word returned to the master (R1). -/
def State.carryRead (s : State) (m : Master) (a : Addr) (w : BusWord) : State :=
  { s with ports := { s.ports with storeSide := some (.read m a), returned := some w } }

/-- An access passed unchanged (R3, R5). -/
def State.pass (s : State) (x : Access) : State :=
  match x.op with
  | .write w => s.carryWrite x.master x.addr w
  | .read w => s.carryRead x.master x.addr w

/-! ## Regions (R2) -/

/-- The region of an address, with the offset in it. -/
inductive Region where
  | sample (k : Nat)
  | route (k : Nat)
  | directive (k : Nat)
  | report (k : Nat)
  | outside
deriving DecidableEq, Repr

/-- The offset of an address from a base, if it lies below the extent. -/
def offsetIn (base : Addr) (extent : Nat) (a : Addr) : Option Nat :=
  if base.toNat ≤ a.toNat ∧ a.toNat < base.toNat + extent then some (a.toNat - base.toNat) else none

/-- The region of an address (R2): the sample store, the route store, D0 to D7, RP0 to RP15. -/
def regionOf (b : Bases) (a : Addr) : Region :=
  match offsetIn b.sample 4096 a with
  | some k => .sample k
  | none =>
    match offsetIn b.route 2048 a with
    | some k => .route k
    | none =>
      match offsetIn b.directive 24 a with
      | some k => if k < 8 then .directive k else .report (k - 8)
      | none => .outside

/-- The channel of an offset in the sample store or the route store (R2). -/
def channelAt (k : Nat) : Channel := Fin.ofNat 2048 k

/-! ## Incoming sample writes (R6 to R8) -/

/-- The word that reaches the store when the part substitutes a 12-bit word (R7, R8, R174). -/
def substituted (w : Word) (p : Pattern) : BusWord := freshParity (substituteSample w p)

/-- The fibre word of a channel in this frame (R7). A channel with IN = FIBRE has a register (R115; log 9). -/
def State.fibreWord (s : State) (c : Channel) : Pattern :=
  match s.register c with
  | some y => y.frameWord
  | none => Config.absentPattern s.freeUsed

/-- An incoming sample write for channel c (R6 to R8). -/
def State.sampleWrite (s : State) (c : Channel) (m : Master) (a : Addr) (w : BusWord) : State :=
  match (s.channel c).active.inn with
  | .pass =>
    let t := s.carryWrite m a w
    match (s.channel c).context with
    | none => t
    | some k => t.handOver c k (sampleOf w.data) (parityGood w)
  | .fibre => s.carryWrite m a (substituted w.data (s.fibreWord c))
  | .idle => s.carryWrite m a (substituted w.data (s.idleOf c))

/-! ## Outgoing reads and read pairing (R9 to R15) -/

/-- The pairing register EMPTY. -/
def State.emptyPairing (s : State) : State := { s with bi := { s.bi with pairing := none } }

/-- An OPEN pairing is broken: a wanted capture is handed over damaged, with the idle sample code and the supervision
held (R10, R15, R68). The register becomes EMPTY. -/
def State.breakPairing (s : State) : State :=
  match s.bi.pairing with
  | none => s
  | some p =>
    let t := s.emptyPairing
    if p.wanted = true then
      t.handCapture p.channel ⟨pattern p.supervision (codeOf (s.idleOf p.channel)), true⟩
    else t

/-- The TAP setting asks for a capture. -/
def Tap.wants : Tap → Bool
  | .none => false
  | .shadow => true
  | .live => true

/-- The data a route read returns (R13). -/
def State.routeReturned (s : State) (c : Channel) (w : BusWord) : BusWord :=
  match (s.channel c).active.out with
  | .pass => w
  | .idle => freshParity (substituteSupervision w.data (s.idleOf c))

/-- A route read for outgoing channel c (R10, R11, R13). -/
def State.routeReadFor (s : State) (c : Channel) (m : Master) (a : Addr) (w : BusWord) : State :=
  let wanted := (s.channel c).active.tap.wants
  let damaged := !parityGood w
  let t := s.breakPairing
  let t :=
    if connected w.data = true then
      { t with bi := { t.bi with pairing := some ⟨c, routeSupervision w.data, wanted, damaged⟩ } }
    else if wanted = true then t.handCapture c ⟨pattern (routeSupervision w.data) (codeOf (s.idleOf c)), damaged⟩
    else t
  t.carryRead m a (s.routeReturned c w)

/-- The data a sample read that completes the pairing of c returns (R13). -/
def State.sampleReturned (s : State) (c : Channel) (w : BusWord) : BusWord :=
  match (s.channel c).active.out with
  | .pass => w
  | .idle => substituted w.data (s.idleOf c)

/-- An ENGINE sample read (R12, R13). -/
def State.sampleReadAt (s : State) (m : Master) (a : Addr) (w : BusWord) : State :=
  match s.bi.pairing with
  | none => s.carryRead m a w
  | some p =>
    let t := s.emptyPairing
    let t :=
      if p.wanted = true then
        t.handCapture p.channel ⟨pattern p.supervision (codeOf (sampleOf w.data)), p.damaged || !parityGood w⟩
      else t
    t.carryRead m a (s.sampleReturned p.channel w)

/-! ## Directive writes and report reads (R16) -/

/-- A directive write: it reaches the store unchanged, and DU takes a copy. -/
def State.directiveWrite (s : State) (offset : Nat) (m : Master) (a : Addr) (w : BusWord) : State :=
  (s.carryWrite m a w).modDu fun d => d.take offset w

/-- A report read of RPn: the report word with fresh parity, then the side effect. -/
def State.reportReadAt (s : State) (n : Nat) (m : Master) (a : Addr) : State :=
  (s.carryRead m a (freshParity (s.reportWord n))).modDu fun d => d.reportRead n

/-! ## One access (R3, R4) -/

/-- An access taken in RUNNING, by its class (R4). -/
def State.classified (s : State) (b : Bases) (x : Access) : State :=
  match x.master, x.op, regionOf b x.addr with
  | .engine, .write w, .sample k => s.sampleWrite (channelAt k) x.master x.addr w
  | .engine, .read w, .route k => s.routeReadFor (channelAt k) x.master x.addr w
  | .engine, .read w, .sample _ => s.sampleReadAt x.master x.addr w
  | .controller, .write w, .directive k => s.directiveWrite k x.master x.addr w
  | .controller, .read _, .report n => s.reportReadAt n x.master x.addr
  | _, _, _ => s.pass x

/-- One access taken at the shelf-side port (R1, R3): classified in RUNNING, passed in every other part state and while
the reset lasts. -/
def State.access (s : State) (x : Access) : State :=
  if s.part = .running ∧ s.resetHeld = false then
    match s.bi.bases with
    | some b => s.classified b x
    | none => s.pass x
  else s.pass x

/-- The access of a bus row, after the own steps that are due. -/
def State.busRow (s : State) (m : Master) (a : Addr) (op : BusOp) : State := s.settled.access ⟨m, a, op⟩

/-- A D0 write: the word of a code and the bits below it. -/
def d0Write (code : BitVec 4) (low : BitVec 12) (upper lower : Bool) : BusOp := .write ⟨d0Word code low, upper, lower⟩

/-! ## The rows -/

/-- INCOMING_SAMPLE_WRITE (R6 to R8). -/
def execIncomingSampleWrite (a : Addr) (w : BusWord) (s : State) : Host.Outcome State Fault Refusal :=
  .next (s.busRow .engine a (.write w))

/-- ROUTE_READ (R10, R11, R13). -/
def execRouteRead (a : Addr) (w : BusWord) (s : State) : Host.Outcome State Fault Refusal :=
  .next (s.busRow .engine a (.read w))

/-- SAMPLE_READ (R12, R13). -/
def execSampleRead (a : Addr) (w : BusWord) (s : State) : Host.Outcome State Fault Refusal :=
  .next (s.busRow .engine a (.read w))

/-- PLAIN_ACCESS (R5). -/
def execPlainAccess (x : Access) (s : State) : Host.Outcome State Fault Refusal :=
  .next (s.busRow x.master x.addr x.op)

/-- ENROL (R155): the D0 write that starts it. -/
def execEnrol (a : Addr) (low : BitVec 12) (upper lower : Bool) (s : State) : Host.Outcome State Fault Refusal :=
  .next (s.busRow .controller a (d0Write 1 low upper lower))

/-- CUT (R156): the D0 write that starts it. -/
def execCutChannel (a : Addr) (low : BitVec 12) (upper lower : Bool) (s : State) : Host.Outcome State Fault Refusal :=
  .next (s.busRow .controller a (d0Write 2 low upper lower))

/-- RETIRE (R156): the D0 write that starts it. -/
def execRetireChannel (a : Addr) (low : BitVec 12) (upper lower : Bool) (s : State) :
    Host.Outcome State Fault Refusal :=
  .next (s.busRow .controller a (d0Write 3 low upper lower))

/-- RECALL (R157): the D0 write that starts it. -/
def execRecallChannel (a : Addr) (low : BitVec 12) (upper lower : Bool) (s : State) :
    Host.Outcome State Fault Refusal :=
  .next (s.busRow .controller a (d0Write 4 low upper lower))

/-- WITHDRAW (R157): the D0 write that starts it. -/
def execWithdrawChannel (a : Addr) (low : BitVec 12) (upper lower : Bool) (s : State) :
    Host.Outcome State Fault Refusal :=
  .next (s.busRow .controller a (d0Write 5 low upper lower))

/-- INSPECT (R158): the D0 write that starts it. -/
def execInspect (a : Addr) (low : BitVec 12) (upper lower : Bool) (s : State) : Host.Outcome State Fault Refusal :=
  .next (s.busRow .controller a (d0Write 6 low upper lower))

/-- SLOTVIEW (R159): the D0 write that starts it. -/
def execSlotview (a : Addr) (low : BitVec 12) (upper lower : Bool) (s : State) : Host.Outcome State Fault Refusal :=
  .next (s.busRow .controller a (d0Write 7 low upper lower))

/-- SET (R161): the D0 write that starts it. -/
def execSetParameter (a : Addr) (low : BitVec 12) (upper lower : Bool) (s : State) : Host.Outcome State Fault Refusal :=
  .next (s.busRow .controller a (d0Write 8 low upper lower))

/-- ABANDON (R162): the D0 write that starts it. -/
def execAbandon (a : Addr) (low : BitVec 12) (upper lower : Bool) (s : State) : Host.Outcome State Fault Refusal :=
  .next (s.busRow .controller a (d0Write 9 low upper lower))

/-- UNKNOWN_DIRECTIVE_CODE (R154): the D0 write that starts a directive whose run refuses it with CODE. -/
def execUnknownDirectiveCode (a : Addr) (code : BitVec 4) (low : BitVec 12) (upper lower : Bool) (s : State) :
    Host.Outcome State Fault Refusal :=
  .next (s.busRow .controller a (d0Write code low upper lower))

/-- PARAMETER_LATCH_WRITE (R152). -/
def execParameterLatchWrite (a : Addr) (w : BusWord) (s : State) : Host.Outcome State Fault Refusal :=
  .next (s.busRow .controller a (.write w))

/-- ATTENTION_MASK_WRITE (R152). -/
def execAttentionMaskWrite (a : Addr) (w : BusWord) (s : State) : Host.Outcome State Fault Refusal :=
  .next (s.busRow .controller a (.write w))

/-- DIRECTIVE_WRITE_OTHER (R152). -/
def execDirectiveWriteOther (a : Addr) (w : BusWord) (s : State) : Host.Outcome State Fault Refusal :=
  .next (s.busRow .controller a (.write w))

/-- RP0_READ (R163). -/
def execRp0Read (a : Addr) (w : BusWord) (s : State) : Host.Outcome State Fault Refusal :=
  .next (s.busRow .controller a (.read w))

/-- RP6_READ (R160). -/
def execRp6Read (a : Addr) (w : BusWord) (s : State) : Host.Outcome State Fault Refusal :=
  .next (s.busRow .controller a (.read w))

/-- RP7_READ (R164). -/
def execRp7Read (a : Addr) (w : BusWord) (s : State) : Host.Outcome State Fault Refusal :=
  .next (s.busRow .controller a (.read w))

/-- RP8_READ (R164). -/
def execRp8Read (a : Addr) (w : BusWord) (s : State) : Host.Outcome State Fault Refusal :=
  .next (s.busRow .controller a (.read w))

end Sys2Proof.Machine
end

