-- ==== Sys2Proof/Machine/Boundary.lean ====
section
/-! DEFINITION. The frame timer and the frame boundary (sections 1.8, 2.3, and the boundary rules of every block), with
the rows FMARK, HOLDOVER_ENTRY and HOLDOVER_BOUNDARY. -/

namespace Sys2Proof.Machine

/-! ## What each block does at a boundary -/

/-- FT at a boundary (R18 to R21): the number, and the timer restarted. -/
def State.tick (s : State) : State :=
  { s with ft := { s.ft with frameNumber := s.ft.frameNumber + 1, timer := 0, boundarySeen := true } }

/-- A slot entry at a boundary (R76, R87, R88): the latch becomes visible, the hold count and the bar clock step. -/
def SlotEntry.boundary (e : SlotEntry) : SlotEntry :=
  let x := { e with visible := e.latch, latch := none }
  if e.inUse = true then
    { x with holdCount := if (goodArrival e.latch).isSome = true then 0 else min 65535 (e.holdCount + 1) }
  else if e.state = .barred then { x with barClock := e.barClock - 1 }
  else x

/-- The slots whose bar clock has run out. -/
def barsOver (slots : Assoc SlotNo SlotEntry) : List Due :=
  (slots.filter fun (_, e) => decide (e.state = .barred) && decide (e.barClock = 0)).map fun p => .barClockExpiry p.1

/-- The slots whose follow-due mark is set (R104). -/
def followsDue (slots : Assoc SlotNo SlotEntry) : List Due :=
  slots.filterMap fun (n, e) => if e.followDue = true then e.channel.map fun c => .followCut c n else none

/-- The arrival pushed for an owner: that of its slot, or HOLD (R54). -/
def State.pushed (s : State) (c : Channel) : Option Pattern :=
  match (s.channel c).slot with
  | none => none
  | some n => goodArrival (s.slot n).visible

/-- The counts of a context at a boundary: the join clock and the retry gap in JOINING (R52, R98), the guard in CARRIED
(R113). -/
def Context.count (x : Context) (phase : Phase) : Context :=
  match phase with
  | .joining => { x with joinClock := min 65535 (x.joinClock + 1), retryGap := x.retryGap - 1 }
  | .carried => { x with guardRemaining := x.guardRemaining - 1 }
  | _ => x

/-- A context at a boundary (R52, R54, R98, R113), once the latches have become visible. -/
def State.contextStep (s : State) (x : Context) : Context :=
  Context.count { x with delay := (s.pushed x.owner :: x.delay).take 16 } (s.channel x.owner).phase

/-- The contexts whose join clock has reached JoinWait (R52). -/
def State.joinsOver (s : State) : List Due :=
  s.cp.contexts.filterMap fun (k, x) =>
    if (s.channel x.owner).phase = .joining ∧ s.sc.params.joinWait ≤ x.joinClock then some (.joinTimeout x.owner k)
    else none

/-- The contexts whose retry gap the boundary brings to 0 (R98). -/
def State.gapsOver (s : State) : List Due :=
  s.cp.contexts.filterMap fun (k, x) =>
    if (s.channel x.owner).phase = .joining ∧ x.retryGap = 1 then some (.retryGapEnd x.owner k) else none

/-- The channels whose guard the boundary brings to 0 (R113). -/
def State.guardsOver (s : State) : List Channel :=
  s.cp.contexts.filterMap fun (_, x) =>
    if (s.channel x.owner).phase = .carried ∧ x.guardRemaining = 1 then some x.owner else none

/-- A schedule one boundary nearer (R99). -/
def Schedule.lowered (x : Schedule) : Schedule := { x with toGo := x.toGo - 1 }

/-- The schedules that this boundary brings to 0 (R99). -/
def cutsDue (x : Assoc Channel Schedule) : List Due :=
  (x.filter fun (_, y) => decide (y.toGo ≤ 1)).map fun (c, y) => .cutDue c y.slot

/-- The schedules that stay. -/
def stepSchedules (x : Assoc Channel Schedule) : Assoc Channel Schedule :=
  Assoc.mapValues (fun _ y => y.lowered) (x.filter fun (_, y) => decide (1 < y.toGo))

/-- One boundary more since the first frame of the outstanding notice (R96). -/
def Outstanding.boundary (o : Outstanding) : Outstanding :=
  { o with firstSent := o.firstSent.map fun (first, taken) => (first, taken + 1) }

/-- The pending route becomes the active route (R25). -/
def ChannelRecord.latchRoute (r : ChannelRecord) : ChannelRecord := { r with active := r.pending }

/-- The fibre word registers under the new active routes (R115): one for each channel with IN = FIBRE, the register it
had, or one started from its idle pattern. -/
def State.latchRegisters (s : State) : Assoc Channel FibreRegister :=
  (s.cm.filter fun (_, r) => decide (r.active.inn = .fibre)).map fun (c, _) =>
    (c, (s.register c).getD (FibreRegister.start (s.idleOf c)))

/-- CM and BI: the route latch and the registers (R25, R115). -/
def State.latchRoutes (s : State) : State :=
  let t := { s with cm := Assoc.mapValues (fun _ r => r.latchRoute) s.cm }
  { t with bi := { t.bi with registers := t.latchRegisters } }

/-- Mark the register of a channel whose guard has just ended; its GUARD_END step comes due (R113). -/
def State.endGuard (s : State) (c : Channel) : State :=
  match s.register c with
  | none => s
  | some y => s.setRegister c { y with guardEnding := true }

/-- The counts and latches that this boundary steps, in every block; nothing here raises an event or makes a claim. -/
def State.countAll (s : State) : State :=
  let s := s.tick
  let s := { s with sn := { s.sn with
    slots := Assoc.mapValues (fun _ e => e.boundary) s.sn.slots
    schedules := stepSchedules s.sn.schedules
    outstanding := s.sn.outstanding.map Outstanding.boundary } }
  let ended := s.guardsOver
  let s := { s with
    cp := { s.cp with contexts := Assoc.mapValues (fun _ x => s.contextStep x) s.cp.contexts }
    cl := s.cl.countLoss }
  let s := ended.foldl State.endGuard s.latchRoutes
  s.pauseStep.1

/-- The own steps that the loss count brings due (R80, R81). -/
def State.lossDue (s : State) : List Due :=
  if s.cl.lossCount < Config.lossLimit then []
  else
    match s.cl.link with
    | .up => [.linkDown]
    | .hunting => [.huntLoss]
    | .dark => []

/-- An own step of the boundary taken before the frame is built, if the order says so (log 2). -/
def State.early (b : Bool) (f : State → State) (s : State) : State := if b = true then f s else s

/-- A list of own steps, unless they have been taken. -/
def lateDue (taken : Bool) (d : List Due) : List Due := if taken = true then [] else d

/-- A frame boundary in RUNNING. The blocks' counts step; then, in the order that `o` gives, the assignments, the
carrier loss, SN's test and the damaged capture are taken or left; the frame is built and sent; the fibre words are
chosen; and the remaining steps of this boundary come due, in one order of the model's choice (log 1, log 2, log 30). -/
def State.runningBoundary (s : State) (o : BoundaryOrder) : State :=
  let ended := s.cm
  let t := s.countAll
  let cuts := cutsDue s.sn.schedules ++ followsDue s.sn.slots
  let gaps := s.gapsOver
  let guards := s.guardsOver.map Due.guardEnd
  let loss := t.lossDue
  let retry := if s.pauseStep.2 = true then [Due.reinstatementRetry] else []
  let clocks := t.joinsOver ++ gaps ++ barsOver t.sn.slots
  let t := State.early o.assignFirst State.assignContexts t
  let t := State.early o.lossFirst State.takeLinkDown t
  let t := State.early o.noticeFirst State.makeOutstanding t
  let t := if o.captureFirst = true then (t.breakPairing).sendFrame ended
    else State.breakPairing (t.sendFrame ended)
  let t := { t with cl := { t.cl with captures := [] } }
  let t := t.carryAll
  { t with due := cuts ++ guards ++ t.due ++ loss ++ clocks ++ lateDue o.noticeFirst [.noticeOutstanding] ++
      lateDue o.assignFirst [.contextAssign] ++ retry }

/-- A frame boundary, from either source (R18). In LOADING and BYPASS only the frame timer acts on it. A frame still
being sent has gone out before the next boundary (section 4.1). -/
def State.boundary (s : State) (o : BoundaryOrder) : State :=
  if s.part = .running then s.reportSent.settled.runningBoundary o else s.tick

/-- A claim from a hand-over that may be taken after the boundary that ends its frame (R28, R61). -/
def Due.floats : Due → Bool
  | .proofSuccess _ _ _ => true
  | .proofFailure _ _ => true
  | .demotion _ _ => true
  | _ => false

/-- The proof claims of the frame that a boundary ends, which may be taken after it. Behind claims that a boundary has left
due already the mark stands: these are taken before the next one (R25, R28, "No claim is held over for later"), and no
claim of a later frame is due beside them, since a hand-over first takes what is due. -/
def State.floating (s : State) : List Due := if .passed ∈ s.due then [] else s.due.filter Due.floats

/-- Claims left due by a boundary, with the mark behind them. -/
def leftDue (claims : List Due) : List Due := if claims = [] then [] else claims ++ [.passed]

/-- The boundary with the own steps that are due taken before it, but for the proof claims of the ending frame that the
order puts after it (R25, R28, R61). DESIGN CHOICE (log 23): R164 lets the events of different blocks at one instant enter in either order;
MARK_LOST and MARK_RESTORED, which `after` raises, enter after the events raised inside the boundary (COLLAPSED, a
LINK_DOWN or JOIN_FAILED taken early) and before those of the steps the boundary leaves due (CUT_DONE, LINK_DOWN). -/
def State.orderedBoundary (s : State) (o : BoundaryOrder) (after : State → State) : State :=
  if o.claimsFirst = true then after (s.settled.boundary o)
  else
    let t := State.settled { s with due := s.due.filter fun d => decide (d ∉ s.floating) }
    let u := after (t.boundary o)
    { u with due := u.due ++ leftDue s.floating }

/-! ## Marks -/

/-- The holdover timer at a mark or a timeout: it does not run backwards. -/
def State.timerAt (s : State) (time : Nat) : State := { s with ft := { s.ft with timer := max s.ft.timer time } }

/-- The mark is a runt: less than 62.5 microseconds since the last boundary (R19, R21). -/
def FrameTimer.runt (x : FrameTimer) : Bool := x.boundarySeen && decide (x.timer < Config.runtLimit)

/-- Back to LOCKED, with MARK_RESTORED when it was HOLDOVER (R21). Its place among the events of the boundary is the
model's choice (log 23). -/
def State.relock (was : MarkState) (s : State) : State :=
  match was with
  | .locked => s
  | .holdover => State.raise { s with ft := { s.ft with mark := .locked } } .markRestored 0

/-- FMARK (R19, R21). The mark is not taken while the reset lasts. -/
def execFmark (time : Nat) (o : BoundaryOrder) (s : State) : Host.Outcome State Fault Refusal :=
  let t := s.timerAt time
  .next (if s.resetHeld = true then s
    else if t.ft.runt = true then t
    else t.orderedBoundary o (State.relock t.ft.mark))

/-- To HOLDOVER, with MARK_LOST (R20). Its place among the events of the boundary is the model's choice (log 23). -/
def State.loseMark (s : State) : State := State.raise { s with ft := { s.ft with mark := .holdover } } .markLost 0

/-- HOLDOVER_ENTRY (R20): in LOCKED, when 187.5 microseconds have passed (log 3). -/
def execHoldoverEntry (o : BoundaryOrder) (s : State) : Host.Outcome State Fault Refusal :=
  .next (if s.resetHeld = true ∨ s.ft.mark = .holdover then s
    else (s.timerAt Config.holdoverLimit).orderedBoundary o State.loseMark)

/-- HOLDOVER_BOUNDARY (R20): in HOLDOVER, when 125 microseconds have passed since the last boundary (log 3). -/
def execHoldoverBoundary (o : BoundaryOrder) (s : State) : Host.Outcome State Fault Refusal :=
  .next (if s.resetHeld = true ∨ s.ft.mark = .locked then s
    else (s.timerAt Config.holdoverPeriod).orderedBoundary o id)

end Sys2Proof.Machine
end

