-- ==== Sys2Proof/Machine/Loader.lean ====
section
/-! DEFINITION. Part reset, the loader, BYPASS and the entry to RUNNING (chapter 10, R150), with their rows. -/

namespace Sys2Proof.Machine

/-! ## The transfers of the I2C line -/

/-- The line of one 64-byte transfer of the load (R168, R170). -/
def loadTransfer (a : Nat) : List LineEvent :=
  [.start, .send deviceWrite] ++ sendAll (addressBytes a) ++ [.repeatedStart, .send deviceRead] ++ receiveAll 64 ++
    [.stop]

/-- The line of an opening poll (R168). -/
def loadPollLine : List LineEvent := [.start, .send deviceRead, .stop]

/-- The transfer of the load at a stage of the loader. -/
def LoadStage.transfer : LoadStage → List LineEvent
  | .poll => loadPollLine
  | .header => loadTransfer 0
  | .records j => loadTransfer (64 + 64 * j)
  | .done => []

/-- The transfer that SC makes: that of the load, or of the write in flight; none in BYPASS and while the reset lasts. -/
def State.transfer (s : State) : List LineEvent :=
  if s.resetHeld = true then []
  else
    match s.part with
    | .bypass => []
    | .loading => s.sc.loader.transfer
    | .running =>
      match s.sc.flight with
      | none => []
      | some f => f.transfer

/-! ## Part reset -/

/-- The eight bytes that a power-on reset leaves of a record being programmed (R150): seven free values, and a check
byte that does not hold (log 8). -/
def damagedRecord (n : SlotNo) (used : Nat) : List Byte :=
  let body := (List.range 7).map fun i => Config.damagedByte (used + i)
  let off : Byte := 1 + BitVec.ofNat 8 ((Config.damagedByte (used + 7)).toNat % 255)
  body ++ [recordCheckByte n body + off]

/-- The retirement store through a part reset (R150): a page being programmed is finished when the supply is kept, and
damaged when a power-on reset takes it. DESIGN CHOICE, in four points:
- a page not yet sent when the reset comes leaves what the last complete programming left, so a REINSTATEMENT cut off in
  PROGRAM leaves what the TARGET programmed (log 26);
- a page cut off by RST is finished at the RST itself, so a power-on reset that follows finds it undamaged (log 27);
- R44 has every cut-off write leave a record taken as void; the table of R150, which this follows, has not (log 28);
- a page counts as being programmed until the store acknowledges its address again, in a poll or in a page write, so a
  power-on reset in POLL, or in PAUSE after a poll timeout, always leaves it damaged (log 29). -/
def RetirementStore.throughReset (x : RetirementStore) (cause : ResetCause) (used : Nat) : RetirementStore :=
  match cause, x.programming with
  | _, none => x
  | .rst, some _ => x.commit
  | .powerOn, some (n, _) => ⟨x.cells.writeBytes (recordAddress n) (damagedRecord n used), none⟩

/-- The free values a part reset uses. -/
def RetirementStore.resetUses (x : RetirementStore) (cause : ResetCause) : Nat :=
  match cause, x.programming with
  | .powerOn, some _ => 8
  | _, _ => 0

/-- PART_RESET (R167): every block takes its reset values; a transfer is cut off where it stands, without its stop condition,
and the line is released (R150). The retirement store stands outside the reset, and the commands
that wait go on waiting. -/
def execPartReset (reset : PartReset) (s : State) : Host.Outcome State Fault Refusal :=
  let t := s.settled
  let store := t.storeAt reset.place
  .next { State.reset with
    resetHeld := true
    store := store.throughReset reset.cause t.freeUsed
    ports := { State.reset.ports with line := t.transfer.dropLast.take reset.place ++ releaseLine }
    freeUsed := t.freeUsed + store.resetUses reset.cause
    pending := s.pending }

/-- RESET_END (R167, R168): LOADING begins, with the opening poll. The holdover timer starts from 0 (R18). -/
def execResetEnd (s : State) : Host.Outcome State Fault Refusal :=
  .next (if s.resetHeld = true then { s with resetHeld := false, part := .loading } else s)

/-! ## The load -/

/-- What the loader does next. -/
def State.setLoader (s : State) (x : LoadStage) : State := { s with sc := { s.sc with loader := x } }

/-- The loader is at a stage: only in LOADING, after the reset has ended. -/
def State.loading (s : State) : Option LoadStage :=
  if s.part = .loading ∧ s.resetHeld = false then some s.sc.loader else none

/-- The load has failed (R172): BYPASS, with what SC does on the line as it stops. -/
def State.bypass (s : State) (line : List LineEvent) : State :=
  State.drive { s with part := .bypass, sc := { s.sc with loader := .done, header := none } } line

/-- The opening poll (R168). -/
def State.pollLoader (s : State) (acked : Bool) : State :=
  let t := s.drive loadPollLine
  if acked = true then t.setLoader .header else t

/-- The header (R169): a good one is held, and the records are next; any other ends the load. -/
def State.takeHeader (s : State) : State :=
  let t := s.drive (loadTransfer 0)
  match readHeader (s.store.cells.readBytes 0 64) with
  | none => t.bypass (loadTransfer 0 ++ releaseLine)
  | some h => { t with sc := { t.sc with header := some h, loader := .records 0 } }

/-- A restored channel (R44, R170). -/
def restoredRecord (n : SlotNo) (f : RetiredFields) : ChannelRecord where
  phase := .stranded
  label := some f.label
  idle := some f.idle
  slot := some n
  context := none
  lag := 0
  collapsed := true
  cause := some .load
  origin := none
  pending := Phase.stranded.route
  active := Phase.stranded.route

/-- One record judged (R170). -/
def State.judgeRecord (s : State) (n : SlotNo) : State :=
  let bytes := s.store.cells.readBytes (recordAddress n) 8
  if bytes.head? = some retiredByte then
    match readRetired n bytes with
    | none => s.raise .recordSkipped (Fin.ofNat 2048 n.val)
    | some f =>
      if (s.channel f.channel).phase ≠ .copper ∨ (s.channelOfLabel f.label).isSome = true then
        s.raise .recordSkipped (Fin.ofNat 2048 n.val)
      else (s.setChannel f.channel (restoredRecord n f)).setSlot n { SlotEntry.reset with
        state := .held, channel := some f.channel }
  else s

/-- The records of slots `first` to `first + count - 1`, in ascending order (R170). -/
def State.judgeRecords (s : State) (first : Nat) : Nat → State
  | 0 => s
  | count + 1 => State.judgeRecords (s.judgeRecord (Fin.ofNat 1024 first)) (first + 1) count

/-- The entry to RUNNING with a good header (R171). -/
def State.enterRunning (s : State) (h : Header) : State :=
  let t := s.raise .loadDone (Fin.ofNat 2048 s.outsideCopper)
  { t with
    part := .running
    bi := { t.bi with bases := some h.bases, pairing := none }
    cl := { t.cl with role := some h.role }
    sc := { t.sc with params := h.params, loader := .done, header := none } }

/-- Transfer j of the records, j from 0 to 127 (R170); after the last the part enters RUNNING (R171). -/
def State.takeRecords (s : State) (j : Nat) : State :=
  let t := (s.drive (loadTransfer (64 + 64 * j))).judgeRecords (8 * j) 8
  if j < 127 then t.setLoader (.records (j + 1))
  else
    match t.sc.header with
    | none => t.bypass (loadTransfer (64 + 64 * j) ++ releaseLine)
    | some h => t.enterRunning h

/-- LOADER_POLL (R168). -/
def execLoaderPoll (acked : Bool) (s : State) : Host.Outcome State Fault Refusal :=
  .next (if s.loading = some .poll then s.pollLoader acked else s)

/-- LOAD_POLL_TIMEOUT (R168): the load has failed. -/
def execLoadPollTimeout (s : State) : Host.Outcome State Fault Refusal :=
  .next (if s.loading = some .poll then s.bypass releaseLine else s)

/-- HEADER_READ (R169). -/
def execHeaderRead (s : State) : Host.Outcome State Fault Refusal :=
  .next (if s.loading = some .header then s.takeHeader else s)

/-- RECORD_TRANSFER (R170, R171). -/
def execRecordTransfer (s : State) : Host.Outcome State Fault Refusal :=
  .next (match s.loading with
    | some (.records j) => s.takeRecords j
    | _ => s)

/-! ## A missing acknowledge (R141) -/

/-- How the loader leaves the line after a missing acknowledge (R172): with a stop condition when the line is free to
make one, and released. -/
def ackFaultLine : AckFault → List LineEvent
  | .byteNotAcknowledged => stopAndRelease
  | .clockHeldLow => releaseLine
  | .dataHeldLow => releaseLine

/-- A missing acknowledge in LOADING (R168, R172), after SC has `sent` a part of the transfer: it ends the load in the
header or record transfers. The opening poll is not judged by R141 (log 18). DESIGN CHOICE (log 32): no record of the
transfer that it cuts off is judged, also where some were read before it. -/
def State.loadMissingAck (s : State) (cause : AckFault) (sent : List LineEvent) : State :=
  match s.sc.loader with
  | .header => s.bypass (sent ++ ackFaultLine cause)
  | .records _ => s.bypass (sent ++ ackFaultLine cause)
  | .poll => s
  | .done => s

/-- A missing acknowledge, by the part state, at a point of the transfer that SC makes. A page write whose address the
store has acknowledged shows that it has finished an earlier page (`State.storeAt`). Where there is no transfer, or
it has no such point there, nothing has happened (log 18). -/
def State.missingAck (s : State) (x : MissingAck) : State :=
  match cutOff x s.transfer with
  | none => s
  | some sent =>
    match s.part, s.sc.flight with
    | .loading, _ => s.loadMissingAck x.cause sent
    | .running, some f => State.writeMissingAck { s with store := s.storeAt x.place } f sent
    | _, _ => s

/-- MISSING_ACK (R141, R145, R147, R168). -/
def execMissingAck (fault : MissingAck) (s : State) : Host.Outcome State Fault Refusal :=
  .next (s.settled.missingAck fault)

end Sys2Proof.Machine
end

