-- ==== Sys2Proof/Machine/Dispatch.lean ====
section
/-! DEFINITION. One arm per command: the meaning each row has. -/

namespace Sys2Proof.Machine

/-- The effect of a command on everything but the queue. -/
def exec (i : Instr) (s : State) : Host.Outcome State Fault Refusal :=
  match i with
  | .partReset reset => Sys2Proof.Machine.execPartReset reset s
  | .resetEnd => Sys2Proof.Machine.execResetEnd s
  | .fmark time order => Sys2Proof.Machine.execFmark time order s
  | .holdoverEntry order => Sys2Proof.Machine.execHoldoverEntry order s
  | .holdoverBoundary order => Sys2Proof.Machine.execHoldoverBoundary order s
  | .contextAssign => Sys2Proof.Machine.execContextAssign s
  | .noticeOutstanding => Sys2Proof.Machine.execNoticeOutstanding s
  | .joinTimeout c k => Sys2Proof.Machine.execJoinTimeout c k s
  | .retryGapEnd c k => Sys2Proof.Machine.execRetryGapEnd c k s
  | .barClockExpiry n => Sys2Proof.Machine.execBarClockExpiry n s
  | .cutDue c n => Sys2Proof.Machine.execCutDue c n s
  | .followCut c n => Sys2Proof.Machine.execFollowCut c n s
  | .guardEnd c => Sys2Proof.Machine.execGuardEnd c s
  | .slotSilent c => Sys2Proof.Machine.execSlotSilent c s
  | .linkDown => Sys2Proof.Machine.execLinkDown s
  | .huntLoss => Sys2Proof.Machine.execHuntLoss s
  | .linkUp => Sys2Proof.Machine.execLinkUp s
  | .orphanTest n => Sys2Proof.Machine.execOrphanTest n s
  | .peerShadow n => Sys2Proof.Machine.execPeerShadow n s
  | .proofSuccess c k lag => Sys2Proof.Machine.execProofSuccess c k lag s
  | .proofFailure c k => Sys2Proof.Machine.execProofFailure c k s
  | .demotion c k => Sys2Proof.Machine.execDemotion c k s
  | .cutFailed c n => Sys2Proof.Machine.execCutFailed c n s
  | .joinFailed c => Sys2Proof.Machine.execJoinFailed c s
  | .frameSent => Sys2Proof.Machine.execFrameSent s
  | .noticeExpiry number => Sys2Proof.Machine.execNoticeExpiry number s
  | .incomingSampleWrite addr w => Sys2Proof.Machine.execIncomingSampleWrite addr w s
  | .routeRead addr fromStore => Sys2Proof.Machine.execRouteRead addr fromStore s
  | .sampleRead addr fromStore => Sys2Proof.Machine.execSampleRead addr fromStore s
  | .plainAccess a => Sys2Proof.Machine.execPlainAccess a s
  | .enrol addr low upper lower => Sys2Proof.Machine.execEnrol addr low upper lower s
  | .cutChannel addr low upper lower => Sys2Proof.Machine.execCutChannel addr low upper lower s
  | .retireChannel addr low upper lower => Sys2Proof.Machine.execRetireChannel addr low upper lower s
  | .recallChannel addr low upper lower => Sys2Proof.Machine.execRecallChannel addr low upper lower s
  | .withdrawChannel addr low upper lower => Sys2Proof.Machine.execWithdrawChannel addr low upper lower s
  | .inspect addr low upper lower => Sys2Proof.Machine.execInspect addr low upper lower s
  | .slotview addr low upper lower => Sys2Proof.Machine.execSlotview addr low upper lower s
  | .setParameter addr low upper lower => Sys2Proof.Machine.execSetParameter addr low upper lower s
  | .abandon addr low upper lower => Sys2Proof.Machine.execAbandon addr low upper lower s
  | .unknownDirectiveCode addr code low upper lower => Sys2Proof.Machine.execUnknownDirectiveCode addr code low upper lower s
  | .directiveRun => Sys2Proof.Machine.execDirectiveRun s
  | .parameterLatchWrite addr w => Sys2Proof.Machine.execParameterLatchWrite addr w s
  | .attentionMaskWrite addr w => Sys2Proof.Machine.execAttentionMaskWrite addr w s
  | .directiveWriteOther addr w => Sys2Proof.Machine.execDirectiveWriteOther addr w s
  | .rp0Read addr fromStore => Sys2Proof.Machine.execRp0Read addr fromStore s
  | .rp6Read addr fromStore => Sys2Proof.Machine.execRp6Read addr fromStore s
  | .rp7Read addr fromStore => Sys2Proof.Machine.execRp7Read addr fromStore s
  | .rp8Read addr fromStore => Sys2Proof.Machine.execRp8Read addr fromStore s
  | .frameArrival bytes => Sys2Proof.Machine.execFrameArrival bytes s
  | .storeWriteStart => Sys2Proof.Machine.execStoreWriteStart s
  | .pageWriteEnd => Sys2Proof.Machine.execPageWriteEnd s
  | .storePoll answer => Sys2Proof.Machine.execStorePoll answer s
  | .pollTimeout => Sys2Proof.Machine.execPollTimeout s
  | .storeVerify disturbed => Sys2Proof.Machine.execStoreVerify disturbed s
  | .missingAck fault => Sys2Proof.Machine.execMissingAck fault s
  | .reinstatementRetry => Sys2Proof.Machine.execReinstatementRetry s
  | .loaderPoll acked => Sys2Proof.Machine.execLoaderPoll acked s
  | .loadPollTimeout => Sys2Proof.Machine.execLoadPollTimeout s
  | .headerRead => Sys2Proof.Machine.execHeaderRead s
  | .recordTransfer => Sys2Proof.Machine.execRecordTransfer s

end Sys2Proof.Machine
end

