-- ==== Sys2Proof/Safety.lean ====
section
/-! DEFINITION. What a good state is, and what the part's own steps leave alone, in the terms the statements use. -/

namespace Sys2Proof.Machine

/-- The bytes of the retirement store are in canonical form. -/
def State.memoryCanonical (s : State) : Prop := Memory.wf s.store.cells = true

/-- Every channel's pending route is the triple of its phase (R25). -/
def State.routesFollow (s : State) : Prop := ∀ p ∈ s.cm, p.2.pending = p.2.phase.route

/-- The channel records are listed in ascending order, each channel once. -/
def State.channelsInOrder (s : State) : Prop := (Assoc.keys s.cm).Pairwise (· < ·)

/-- The slot entries are listed in ascending order, each slot once. -/
def State.slotsInOrder (s : State) : Prop := (Assoc.keys s.sn.slots).Pairwise (· < ·)

/-- The event queue holds at most 32 events (R164). -/
def State.eventsBounded (s : State) : Prop := s.du.events.length ≤ Config.eventCapacity

/-- The store queue holds at most 16 requests (R143). -/
def State.storeQueueBounded (s : State) : Prop := s.sc.queue.length ≤ Config.storeCapacity

/-! ## The spec's own invariants -/

/-- The phases in which a channel holds a context, by R23. -/
def ChannelRecord.holdsContext (r : ChannelRecord) : Prop :=
  r.phase ∈ [.joining, .shadow, .proven, .cutting] ∨ r.phase = .carried ∧ r.collapsed = false

/-- The own requests, the outstanding one first: each a kind and a channel (R90). -/
def State.requests (s : State) : List Request :=
  (s.sn.outstanding.map fun o => (⟨o.kind, o.channel⟩ : Request)).toList ++ s.sn.queue

/-- The fields of a channel record go by its phase (R23): a context exactly in JOINING, SHADOW, PROVEN, CUTTING and
uncollapsed CARRIED, the lag 0 without one; a slot in the phases from SHADOW to LEAVING, in JOINING for the own
outstanding JOIN, and in COPPER and ENROLLED none; collapsed in the retired group, and elsewhere only in CARRIED. -/
def State.fieldsByPhase (s : State) : Prop :=
  ∀ c, let r := s.channel c
    (r.context ≠ none ↔ r.holdsContext) ∧ (r.context = none → r.lag = 0) ∧
    (r.phase ∉ [.copper, .enrolled, .joining] → r.slot ≠ none) ∧
    (r.phase = .joining → (r.slot ≠ none ↔ ∃ o, s.sn.outstanding = some o ∧ o.kind = .join ∧ o.channel = c)) ∧
    (r.phase = .copper ∨ r.phase = .enrolled → r.slot = none) ∧
    (r.phase ∈ [.retiring, .retired, .recalling, .stranded] → r.collapsed = true) ∧
    (r.phase ∉ [.carried, .retiring, .retired, .recalling, .stranded] → r.collapsed = false)

/-- A context's owner is the channel whose record names it, and the other way round (R46). The owned contexts are listed
in ascending order, each once. -/
def State.contextsNamed (s : State) : Prop :=
  (Assoc.keys s.cp.contexts).Pairwise (· < ·) ∧
  ∀ c k, (s.channel c).context = some k ↔ ∃ x, s.context k = some x ∧ x.owner = c

/-- The proof queue holds exactly the channels in ENROLLED and FALLEN, each once (R48). -/
def State.proofQueueExact (s : State) : Prop :=
  s.cp.queue.Nodup ∧ ∀ c, c ∈ s.cp.queue ↔ (s.channel c).phase = .enrolled ∨ (s.channel c).phase = .fallen

/-- A slot in use and its channel name each other; RESERVED and RELEASING are the slots of the outstanding JOIN and of
the outstanding LEAVE (R85). -/
def State.slotsNamed (s : State) : Prop :=
  (∀ c n, (s.channel c).slot = some n ↔ (s.slot n).inUse = true ∧ (s.slot n).channel = some c) ∧
  (∀ n, (s.slot n).inUse = true ↔ (s.slot n).channel ≠ none) ∧
  (∀ n, (s.slot n).state = .reserved ↔ ∃ o, s.sn.outstanding = some o ∧ o.kind = .join ∧ o.slot = n) ∧
  (∀ n, (s.slot n).state = .releasing ↔ ∃ o, s.sn.outstanding = some o ∧ o.kind = .leave ∧ o.slot = n)

/-- No channel has two own requests, each is of the kind of its channel's phase, and a JOIN is at LEAD (R90); the
outstanding JOIN or LEAVE has its channel's slot. -/
def State.requestsSingle (s : State) : Prop :=
  (s.requests.map Request.channel).Nodup ∧
  (∀ r ∈ s.requests, match r.kind with
    | .join => (s.channel r.channel).phase = .joining ∧ s.cl.role = some .lead
    | .cut => (s.channel r.channel).phase = .cutting
    | .leave => (s.channel r.channel).phase = .leaving) ∧
  (∀ o, s.sn.outstanding = some o → o.kind ≠ .cut → (s.channel o.channel).slot = some o.slot)

/-- The cut schedules are listed in ascending order, each channel once; a channel with one is CUTTING (R99), and its own
CUT has been answered. -/
def State.schedulesSingle (s : State) : Prop :=
  (Assoc.keys s.sn.schedules).Pairwise (· < ·) ∧
  ∀ c x, Assoc.find s.sn.schedules c = some x → (s.channel c).phase = .cutting ∧ ⟨.cut, c⟩ ∉ s.requests

/-- What the due steps say of the requests (the model's own, log 1): a CUT_DUE or CUT_FAILED that is due comes from a CUT
that is no longer requested or scheduled, and a due LINK_UP stands alone. -/
def State.dueAgrees (s : State) : Prop :=
  (∀ c n, .cutDue c n ∈ s.due ∨ .cutFailed c n ∈ s.due →
    ⟨.cut, c⟩ ∉ s.requests ∧ Assoc.find s.sn.schedules c = none) ∧
  (.linkUp ∈ s.due → s.due = [.linkUp])

/-- Before RUNNING nothing is due, requested or in progress, and the slots that the loader has yet to read are FREE (R167
to R171). -/
def State.loadAgrees (s : State) : Prop :=
  (s.part ≠ .running → s.due = [] ∧ s.requests = [] ∧ s.du.inProgress = none) ∧
  (s.resetHeld = true → s.part = .loading) ∧
  (s.part = .loading → match s.sc.loader with
    | .poll => ∀ n, (s.slot n).state = .free
    | .header => ∀ n, (s.slot n).state = .free
    | .records j => j ≤ 127 ∧ ∀ n, 8 * j ≤ n.val → (s.slot n).state = .free
    | .done => True)

/-- The blocks agree with each other as R23, R46, R48, R85, R90 and R99 say. -/
def State.consistent (s : State) : Prop :=
  s.fieldsByPhase ∧ s.contextsNamed ∧ s.proofQueueExact ∧ s.slotsNamed ∧ s.requestsSingle ∧ s.schedulesSingle ∧
  s.dueAgrees ∧ s.loadAgrees

/-- The conditional fields of a channel record are present as R22 says: a label and an idle pattern outside COPPER, and
there no label; a recall origin in RECALLING; a stranding cause in STRANDED, and in RECALLING from STRANDED. -/
def State.fieldsPresent (s : State) : Prop :=
  ∀ c, let r := s.channel c
    (r.label ≠ none ↔ r.phase ≠ .copper) ∧ (r.phase ≠ .copper → r.idle ≠ none) ∧
    (r.origin ≠ none ↔ r.phase = .recalling) ∧
    (r.cause ≠ none ↔ r.phase = .stranded ∨ r.phase = .recalling ∧ r.origin = some .stranded)

/-- No two channels outside COPPER hold one label (R22). -/
def State.labelsSingle (s : State) : Prop :=
  ∀ c d l, (s.channel c).phase ≠ .copper → (s.channel d).phase ≠ .copper → (s.channel c).label = some l →
    (s.channel d).label = some l → c = d

/-- At most 1024 channels are outside COPPER (R24); before RUNNING only STRANDED ones, which the loader restores (R44). -/
def State.channelsBounded (s : State) : Prop :=
  s.outsideCopper ≤ Config.channelBound ∧
  (s.part ≠ .running → ∀ c, (s.channel c).phase = .copper ∨ (s.channel c).phase = .stranded)

/-- The notice queue holds at most 96 requests, at most 32 of them LEAVE (R90). -/
def State.noticesBounded (s : State) : Prop :=
  s.sn.queue.length ≤ 96 ∧ (s.sn.queue.filter fun r => decide (r.kind = .leave)).length ≤ Config.leaveCapacity

/-- The labels and the bounds of R22, R24 and R90. -/
def State.bounded (s : State) : Prop :=
  s.fieldsPresent ∧ s.labelsSingle ∧ s.channelsBounded ∧ s.noticesBounded

/-- The store holds a valid RETIRED record for a slot, naming a channel (R142): the state byte A7h, the check over the
record and the slot, and the channel number. -/
def State.recordNames (s : State) (n : SlotNo) (c : Channel) : Prop :=
  let b (i : Nat) : Nat := (s.store.cells.read (64 + 8 * n.val + i)).toNat
  b 0 = 0xA7 ∧ (((List.range 8).map b).sum + n.val % 256) % 256 = 0 ∧ b 1 * 256 + b 2 = c.val

/-- The write requests, the one in flight first (R143, R144). -/
def State.writes (s : State) : List WriteRequest := (s.sc.flight.map Flight.request).toList ++ s.sc.queue

/-- A write of the channel's record is in flight and its page write has been sent or has failed (R144, R148). -/
def State.writeBegun (s : State) (c : Channel) : Prop :=
  ∃ f, s.sc.flight = some f ∧ f.request.channel = c ∧ ¬ (f.purpose = .target ∧ f.stage = .program)

/-- A channel in RETIRED or STRANDED has a valid RETIRED record for its slot in the store, naming it, and so has one in
RECALLING until the page write of its void record (R142). -/
def State.retiredRecorded (s : State) : Prop :=
  ∀ c n, (s.channel c).slot = some n →
    (s.channel c).phase = .retired ∨ (s.channel c).phase = .stranded ∨
      (s.channel c).phase = .recalling ∧ ¬ s.writeBegun c →
    s.recordNames n c

/-- Every write request is that of a channel in RETIRING or RECALLING, by its kind, for its slot, and no channel has two
(R143). -/
def State.writesSingle (s : State) : Prop :=
  (s.writes.map WriteRequest.channel).Nodup ∧
  ∀ r ∈ s.writes, (s.channel r.channel).slot = some r.slot ∧
    (s.channel r.channel).phase = match r.kind with
      | .retire => .retiring
      | .void => .recalling

/-- A page being programmed is of the slot of the write in flight, whose page write has been sent and not yet polled to
its end; and outside RUNNING there is no write (R143, R145, R146). -/
def State.pageInFlight (s : State) : Prop :=
  (∀ n bytes, s.store.programming = some (n, bytes) → ∃ f, s.sc.flight = some f ∧ f.request.slot = n ∧
    ¬ (f.purpose = .target ∧ f.stage = .program) ∧ f.stage ≠ .verify) ∧
  (s.part ≠ .running → s.writes = [])

/-- The retirement store agrees with the channel map and with the writes (R142, R143). -/
def State.recorded (s : State) : Prop := s.retiredRecorded ∧ s.writesSingle ∧ s.pageInFlight

/-! ## Taking the due steps -/

/-- The first of the due steps taken. -/
def State.takeFirst (s : State) : State :=
  match s.due with
  | [] => s
  | d :: rest => effect d { s with due := rest }

/-- The due steps, and those that they bring due, are at most `n` (log 20). -/
def State.settlesWithin : Nat → State → Prop
  | 0, s => s.due = []
  | n + 1, s => s.due = [] ∨ State.settlesWithin n s.takeFirst

/-- The state with the holdover timer as a boundary row finds it, at least the time the row stands for (R19, R20; in half
microseconds, log 3). -/
def State.timed (s : State) (i : Instr) : State :=
  match i with
  | .fmark time _ => s.timerAt time
  | .holdoverEntry _ => s.timerAt 375
  | .holdoverBoundary _ => s.timerAt 250
  | _ => s

/-- A carrier loss that the order of a boundary takes before the frame is built (R81; log 2). -/
def State.losesFirst (s : State) (o : BoundaryOrder) : Prop :=
  o.lossFirst = true ∧ s.cl.link = .up ∧ s.cl.markGood = false ∧ 15 ≤ s.cl.lossCount

/-! ## What is left alone -/

/-- The state with everything blanked that an own step of the part may change: the registers, the channel map, the
context pool, the link monitor, the reception mark, the slot table, the event queue with LOST, the store queue with the
write in flight, and the due steps. What is left is the part state, the frame timer, the retirement store, the ports,
the bases and the pairing register, the roles, the captures and the frame being sent, the parameter set, the loader,
the store fault, the rest of DU, and the queue of commands. -/
def State.frame (s : State) : State :=
  { s with
    bi := { s.bi with registers := [] }
    cm := []
    cp := ⟨[], []⟩
    cl := { s.cl with
      markGood := false, link := .dark, lossCount := 0, huntCount := 0, lastNumber := none, inHand := none }
    sn := ⟨[], [], none, 0, [], none⟩
    du := { s.du with events := [], lost := false }
    sc := { s.sc with queue := [], flight := none }
    due := [] }

/-! ## The commands by kind -/

/-- The own step that a row of the table stands for, if it is one. -/
def ownStep (i : Instr) : Option Due :=
  match i with
  | .contextAssign => some .contextAssign
  | .noticeOutstanding => some .noticeOutstanding
  | .joinTimeout c k => some (.joinTimeout c k)
  | .retryGapEnd c k => some (.retryGapEnd c k)
  | .barClockExpiry n => some (.barClockExpiry n)
  | .cutDue c n => some (.cutDue c n)
  | .followCut c n => some (.followCut c n)
  | .guardEnd c => some (.guardEnd c)
  | .slotSilent c => some (.slotSilent c)
  | .linkDown => some .linkDown
  | .huntLoss => some .huntLoss
  | .linkUp => some .linkUp
  | .orphanTest n => some (.orphanTest n)
  | .peerShadow n => some (.peerShadow n)
  | .proofSuccess c k lag => some (.proofSuccess c k lag)
  | .proofFailure c k => some (.proofFailure c k)
  | .demotion c k => some (.demotion c k)
  | .cutFailed c n => some (.cutFailed c n)
  | .joinFailed c => some (.joinFailed c)
  | .noticeExpiry number => some (.noticeExpiry number)
  | .storeWriteStart => some .storeWriteStart
  | .reinstatementRetry => some .reinstatementRetry
  | _ => none

/-- The access that a bus row stands for, if it is one. -/
def busAccess (i : Instr) : Option Access :=
  match i with
  | .incomingSampleWrite a w => some ⟨.engine, a, .write w⟩
  | .routeRead a w => some ⟨.engine, a, .read w⟩
  | .sampleRead a w => some ⟨.engine, a, .read w⟩
  | .plainAccess x => some x
  | .enrol a low u l => some ⟨.controller, a, d0Write 1 low u l⟩
  | .cutChannel a low u l => some ⟨.controller, a, d0Write 2 low u l⟩
  | .retireChannel a low u l => some ⟨.controller, a, d0Write 3 low u l⟩
  | .recallChannel a low u l => some ⟨.controller, a, d0Write 4 low u l⟩
  | .withdrawChannel a low u l => some ⟨.controller, a, d0Write 5 low u l⟩
  | .inspect a low u l => some ⟨.controller, a, d0Write 6 low u l⟩
  | .slotview a low u l => some ⟨.controller, a, d0Write 7 low u l⟩
  | .setParameter a low u l => some ⟨.controller, a, d0Write 8 low u l⟩
  | .abandon a low u l => some ⟨.controller, a, d0Write 9 low u l⟩
  | .unknownDirectiveCode a code low u l => some ⟨.controller, a, d0Write code low u l⟩
  | .parameterLatchWrite a w => some ⟨.controller, a, .write w⟩
  | .attentionMaskWrite a w => some ⟨.controller, a, .write w⟩
  | .directiveWriteOther a w => some ⟨.controller, a, .write w⟩
  | .rp0Read a w => some ⟨.controller, a, .read w⟩
  | .rp6Read a w => some ⟨.controller, a, .read w⟩
  | .rp7Read a w => some ⟨.controller, a, .read w⟩
  | .rp8Read a w => some ⟨.controller, a, .read w⟩
  | _ => none

/-! ## Words the statements use -/

/-- The part runs, no reset lasts, and none of its own steps is due. -/
def State.steady (s : State) : Prop := s.part = .running ∧ s.resetHeld = false ∧ s.due = []

/-- DU after one event is raised: appended while fewer than 32 are held, otherwise discarded with LOST set (R164). -/
def DirectiveUnit.raised (d : DirectiveUnit) (k : EventKind) (c : Channel) : DirectiveUnit :=
  if d.events.length < 32 then { d with events := d.events ++ [⟨k, c⟩] } else { d with lost := true }

/-- DU after a directive or step completes with a tag, an outcome and its results (R154). -/
def DirectiveUnit.completed (d : DirectiveUnit) (tag : BitVec 6) (o : DirectiveOutcome) (r : Results) :
    DirectiveUnit :=
  { d with results := r, outcome := o, tag := tag, inProgress := none, doneSource := true }

/-- Results whose RP1 alone is filled (R157). -/
def Results.first (w : Word) : Results := ⟨w, 0, 0, 0, 0, 0⟩

/-- A directive of a code that a D0 write started, whose copies are not in doubt, and whose D1 names a channel. -/
def Directive.names (d : Directive) (code : BitVec 4) (c : Channel) : Prop :=
  d.stepOf = none ∧ d.code = code ∧ d.copies.d1.doubt = false ∧ d.copies.d1.value.toNat = c.val

/-- The last thing raised is this event, or it was discarded and LOST is set (R164). -/
def DirectiveUnit.lastRaised (d : DirectiveUnit) (k : EventKind) : Prop :=
  d.events.getLast? = some ⟨k, 0⟩ ∨ d.lost = true

/-- Every channel record but that of `c` is unchanged. -/
def keepsOtherChannels (c : Channel) (s t : State) : Prop := ∀ d, d ≠ c → t.channel d = s.channel d

/-- Every context but `k` is unchanged. -/
def keepsOtherContexts (k : Option CtxNo) (s t : State) : Prop := ∀ j, some j ≠ k → t.context j = s.context j

/-- Every slot entry but that of `n` is unchanged. -/
def keepsOtherSlots (n : Option SlotNo) (s t : State) : Prop := ∀ m, some m ≠ n → t.slot m = s.slot m

/-- What no claim on one channel changes: the state with the channel map, the context pool, the slot entries, the
notice queue, the outstanding notice, the schedules, the event queue with LOST and the due steps blanked. -/
def State.claimFrame (s : State) : State :=
  { s with
    cm := []
    cp := ⟨[], []⟩
    sn := { s.sn with slots := [], queue := [], outstanding := none, schedules := [] }
    du := { s.du with events := [], lost := false }
    due := [] }

/-- A slot entry set FREE (R86): no channel, no bar clock, counts 0, marks clear; its arrivals stay. -/
def SlotEntry.freed (e : SlotEntry) : SlotEntry where
  state := .free
  channel := none
  barClock := 0
  latch := e.latch
  visible := e.visible
  holdCount := 0
  orphanCount := 0
  liveRun := 0
  shadowRun := 0
  peerAhead := false
  peerShadow := false
  followDue := false

/-- A slot entry given to a channel (R86). -/
def SlotEntry.given (e : SlotEntry) (st : SlotState) (c : Channel) : SlotEntry :=
  { e.freed with state := st, channel := some c }

/-- The slot a record names, if any, is FREE after, and every other slot entry is unchanged. -/
def slotFreed (n : Option SlotNo) (s t : State) : Prop :=
  (∀ m, n = some m → t.slot m = (s.slot m).freed) ∧ keepsOtherSlots n s t

/-- The context a record names, if any, is free after, and every other context is unchanged (R53). -/
def contextFreed (k : Option CtxNo) (s t : State) : Prop :=
  (∀ j, k = some j → t.context j = none) ∧ keepsOtherContexts k s t

/-- The own outstanding notice after the withdrawal of a channel's request of a kind (R93). -/
def State.outstandingWithout (s : State) (k : NoticeKind) (c : Channel) : Option Outstanding :=
  match s.sn.outstanding with
  | none => none
  | some o => if o.kind = k ∧ o.channel = c then none else some o

/-- The cut schedules after that of a channel is cancelled (R99): the others stay. -/
def scheduleCancelled (c : Channel) (s t : State) : Prop :=
  Assoc.find t.sn.schedules c = none ∧
  ∀ d, d ≠ c → Assoc.find t.sn.schedules d = Assoc.find s.sn.schedules d

/-- The notice queue without a channel's request of a kind (R90, R93). -/
def State.queueWithout (s : State) (k : NoticeKind) (c : Channel) : List Request :=
  s.sn.queue.filter fun r => decide (r ≠ ⟨k, c⟩)

/-- A record in a phase, with the route triple of that phase pending. -/
def ChannelRecord.moved (r : ChannelRecord) (p : Phase) (i : InSetting) (o : OutSetting) (t : Tap) : ChannelRecord :=
  { r with phase := p, pending := ⟨i, o, t⟩ }

/-- The order of the boundary that a row makes at a state, if it makes one: FMARK when the mark is not a runt,
HOLDOVER_ENTRY in LOCKED, HOLDOVER_BOUNDARY in HOLDOVER, and none while the reset lasts (R19 to R21, in half
microseconds, log 3). -/
def boundaryOf (i : Instr) (s : State) : Option BoundaryOrder :=
  if s.resetHeld = true then none
  else
    match i with
    | .fmark time o => if s.ft.boundarySeen = true ∧ max s.ft.timer time < 125 then none else some o
    | .holdoverEntry o => if s.ft.mark = .locked then some o else none
    | .holdoverBoundary o => if s.ft.mark = .holdover then some o else none
    | _ => none

/-- The regions do not overlap (R2, R169 tests 4 and 5). -/
def Bases.apart (b : Bases) : Prop :=
  b.sample.toNat + 4095 < 262144 ∧ b.route.toNat + 2047 < 262144 ∧ b.directive.toNat + 23 < 262144 ∧
  (b.sample.toNat + 4096 ≤ b.route.toNat ∨ b.route.toNat + 2048 ≤ b.sample.toNat) ∧
  (b.sample.toNat + 4096 ≤ b.directive.toNat ∨ b.directive.toNat + 24 ≤ b.sample.toNat) ∧
  (b.route.toNat + 2048 ≤ b.directive.toNat ∨ b.directive.toNat + 24 ≤ b.route.toNat)

/-- The address is word `k` of the sample store (R2). -/
def Bases.sampleAt (b : Bases) (a : Addr) (k : Nat) : Prop := a.toNat = b.sample.toNat + k ∧ k < 4096

/-- The address is word `k` of the route store (R2). -/
def Bases.routeAt (b : Bases) (a : Addr) (k : Nat) : Prop := a.toNat = b.route.toNat + k ∧ k < 2048

/-- The address is directive word Dk (R2). -/
def Bases.directiveAt (b : Bases) (a : Addr) (k : Nat) : Prop := a.toNat = b.directive.toNat + k ∧ k < 8

/-- The address is report word RPk (R2). -/
def Bases.reportAt (b : Bases) (a : Addr) (k : Nat) : Prop := a.toNat = b.directive.toNat + 8 + k ∧ k < 16

/-- An access that the table of R4 classes as plain. -/
def Bases.plain (b : Bases) (x : Access) : Prop :=
  match x.master, x.op with
  | .engine, .write _ => ∀ k, ¬ b.sampleAt x.addr k
  | .engine, .read _ => ∀ k, ¬ b.sampleAt x.addr k ∧ ¬ b.routeAt x.addr k
  | .controller, .write _ => ∀ k, ¬ b.directiveAt x.addr k
  | .controller, .read _ => ∀ k, ¬ b.reportAt x.addr k

/-- The ports after an access carried unchanged (R1, R5): a write reaches the store as written, a read returns what the
store gave. -/
def Ports.passed (p : Ports) (x : Access) : Ports :=
  match x.op with
  | .write w => { p with storeSide := some (.write x.master x.addr w) }
  | .read w => { p with storeSide := some (.read x.master x.addr), returned := some w }

end Sys2Proof.Machine
end

