-- ==== Sys2Proof/Certificates/Slice0/Obligations.lean ====
section
/-! DEFINITION. The statements for the provers, from the rules of spec/, chapter by chapter. -/

open Sys2Proof Sys2Proof.Machine

/-! ## The step and the queue -/

/-- A step takes the command at the front of the queue and runs it on the state with the queue's rest. -/
def Obligations.StepRunsFrontCommand : Prop :=
  ∀ (c : Instr) (rest : List Instr) (s : State), s.pending = c :: rest → step s = exec c { s with pending := rest }

/-- DESIGN CHOICE (log 4): with no command waiting the block idles. -/
def Obligations.EmptyQueueIdles : Prop :=
  ∀ s : State, s.pending = [] → step s = .next s

/-- Own steps: one that is not due changes nothing (log 1), and one that is due changes only what `State.frame` blanks.
The part state, the frame timer, the retirement store, the ports, the bases and the pairing register, the roles, the
captures and the frame being sent, the parameter set, the loader, the store fault, the latches, the mask, the results
and the queue of commands stay as they are. -/
def Obligations.OwnStepsActOnlyWhenDueAndKeepFrame : Prop :=
  ∀ (i : Instr) (d : Due) (s : State), ownStep i = some d →
    (d ∉ s.due → exec i s = .next s) ∧
    ∃ t, exec i s = .next t ∧ t.frame = s.frame

/-- The model's choice (log 1): a command from outside meets the state in which the due own steps have been taken, and
in which none is due. That state is the one that the rows of the due steps give, one after another in the order they came
due (a waiting heard claim has no row, log 25, and a mark is no step); with nothing due it is the state itself. At most
65536 steps are so taken, the model's choice too (log 20). A boundary meets it too where its order takes the claims first;
where not, the proof claims that are due (PROOF_SUCCESS, PROOF_FAILURE, DEMOTION; R25, R28, R61) stay due behind what the
boundary brings due, with a mark behind them, and the other steps are taken before it (log 2). No claim is held over for a
second boundary: where the mark stands, all that is due is taken before the boundary, in either order. In RUNNING a frame still being sent has gone out before the next boundary:
it is as after FRAME_SENT and the expiry that it may bring due. -/
def Obligations.OutsideCommandsMeetSettledState : Prop :=
  (∀ s : State, s.due = [] → s.settled = s) ∧
  (∀ (d : Due) (rest : List Due) (s : State), s.due = d :: rest → s.settlesWithin 65536 →
    (∀ i, ownStep i = some d → ∃ t, exec i s = .next t ∧ s.settled = t.settled ∧ t.settlesWithin 65535) ∧
    (∀ n, d = .heard n →
      let t := State.hear { s with due := rest } n
      s.settled = t.settled ∧ t.settlesWithin 65535) ∧
    (d = .passed →
      let t : State := { s with due := rest }
      s.settled = t.settled ∧ t.settlesWithin 65535)) ∧
  (∀ d : Due, d.floats = true ↔
    (∃ c k l, d = .proofSuccess c k l) ∨ (∃ c k, d = .proofFailure c k) ∨ ∃ c k, d = .demotion c k) ∧
  (∀ (i : Instr) (o : BoundaryOrder) (s : State), boundaryOf i s = some o →
    let u := s.timed i
    let claims := s.due.filter Due.floats
    (o.claimsFirst = true ∨ .passed ∈ s.due ∨ claims = [] → exec i s = exec i u.settled) ∧
    (o.claimsFirst = false → .passed ∉ s.due → claims ≠ [] →
      ∃ t, exec i (State.settled { u with due := s.due.filter fun d => !d.floats }) = .next t ∧
        exec i s = .next { t with due := t.due ++ claims ++ [.passed] }) ∧
    (s.due = [] → s.part = .running → ∃ v, exec .frameSent u = .next v ∧ exec i s = exec i v.settled)) ∧
  ∀ (i : Instr) (s : State), s.settled.due = [] ∧ (
    ((busAccess i).isSome = true ∨ i = .directiveRun ∨ i = .frameSent ∨ (∃ bytes, i = .frameArrival bytes) ∨
      i = .pageWriteEnd ∨ (∃ answer, i = .storePoll answer) ∨ i = .pollTimeout ∨ (∃ w, i = .storeVerify w) ∨
      (∃ fault, i = .missingAck fault)) →
    exec i s = exec i s.settled)

/-! ## Reset and the load -/

/-- What the blocks hold right after a part reset, before the loader acts (R18, R44, R46, R48, R77, R83, R85, R90, R91,
R99, R100, R123, R143, R166, R168, R173). That State.reset is the state at the reset's end is DEDUCED (log 11). -/
def Obligations.ResetHoldsResetValues : Prop :=
  State.reset.part = .loading ∧
  State.reset.ft = { frameNumber := 0, mark := .locked, timer := 0, boundarySeen := false } ∧
  State.reset.bi.bases = none ∧ State.reset.bi.pairing = none ∧ (∀ c, State.reset.register c = none) ∧
  (∀ c, State.reset.channel c =
    { phase := .copper, label := none, idle := none, slot := none, context := none, lag := 0, collapsed := false,
      cause := none, origin := none, pending := ⟨.pass, .pass, .none⟩, active := ⟨.pass, .pass, .none⟩ }) ∧
  (∀ k, State.reset.context k = none) ∧ State.reset.cp.queue = [] ∧
  State.reset.cl.role = none ∧ State.reset.cl.captures = [] ∧ State.reset.cl.sending = none ∧
  State.reset.cl.markGood = false ∧ State.reset.cl.link = .dark ∧ State.reset.cl.lossCount = 0 ∧
  State.reset.cl.huntCount = 0 ∧ State.reset.cl.lastNumber = none ∧ State.reset.cl.peerRole = none ∧
  State.reset.cl.clash = false ∧
  (∀ n, State.reset.slot n =
    { state := .free, channel := none, barClock := 0, latch := none, visible := none, holdCount := 0,
      orphanCount := 0, liveRun := 0, shadowRun := 0, peerAhead := false, peerShadow := false, followDue := false }) ∧
  State.reset.sn.queue = [] ∧ State.reset.sn.outstanding = none ∧ State.reset.sn.nextNumber = 0 ∧
  State.reset.sn.schedules = [] ∧ State.reset.sn.peer = none ∧
  State.reset.du.latches = ⟨⟨0, false⟩, ⟨0, false⟩, ⟨0, false⟩, ⟨0, false⟩⟩ ∧ State.reset.du.mask = 0 ∧
  State.reset.du.inProgress = none ∧ State.reset.du.overrun = false ∧ State.reset.du.parity = false ∧
  State.reset.du.outcome = .done ∧ State.reset.du.tag = 0 ∧ State.reset.du.results = ⟨0, 0, 0, 0, 0, 0⟩ ∧
  State.reset.du.stepMode = none ∧ State.reset.du.events = [] ∧ State.reset.du.lost = false ∧
  State.reset.du.doneSource = false ∧ State.reset.attn = false ∧
  State.reset.sc.params =
    { proveRun := 64, quietLimit := 2, guardFrames := 16, noticeLead := 24, noticeWait := 4000, joinWait := 16000,
      orphanFrames := 800, holdLimit := 8, idle := 0x1D5#12 } ∧
  State.reset.sc.queue = [] ∧ State.reset.sc.flight = none ∧ State.reset.sc.fault = false ∧
  State.reset.sc.loader = .poll

/-- PART_RESET (R167): every block takes its reset values (that the part state reads LOADING from the reset's start, while
it still lasts, is the model's choice, log 11). A transfer is cut off where it stands and ends without a stop condition:
SC releases the data line and then the clock line (R150). What waits in the queue of commands goes on waiting. Only the
retirement store is outside the reset. What the transfers are, ResetEndAndOpeningPoll and StoreWriteGoesThroughItsStages
say. -/
def Obligations.PartResetTakesResetValues : Prop :=
  ∀ (reset : PartReset) (s : State), ∃ t, exec (.partReset reset) s = .next t ∧
    t.resetHeld = true ∧ t.part = .loading ∧ t.ft = State.reset.ft ∧ t.bi = State.reset.bi ∧ t.cm = State.reset.cm ∧
    t.cp = State.reset.cp ∧ t.cl = State.reset.cl ∧ t.sn = State.reset.sn ∧ t.du = State.reset.du ∧
    t.sc = State.reset.sc ∧ t.due = [] ∧ t.pending = s.pending ∧
    t.ports.line = s.settled.transfer.dropLast.take reset.place ++ [.releaseData, .releaseClock] ∧
    .stop ∉ t.ports.line

/-- PART_RESET and the retirement store (R150): with no page being programmed every byte is as before; a page being
programmed with the supply kept holds the record written; one whose supply a power-on reset takes is damaged, its check
failing, unless the page write that is cut off in PROGRAM has had its address acknowledged, when the store has finished the
earlier page (R146, log 21); every byte outside the record is as before. Four points are the model's choices, no rule's: with no page being
programmed a REINSTATEMENT cut off in PROGRAM leaves every byte as the TARGET programmed it (log 26); an RST finishes the
page at the RST itself (log 27); the table of R150 stands against the last sentence of R44 (log 28); and a page counts as
being programmed until the store acknowledges its address again, so that power-on always damages it before (log 29). -/
def Obligations.PartResetLeavesTheRecordByThePointOfTheCut : Prop :=
  ∀ (reset : PartReset) (s : State), ∃ t, exec (.partReset reset) s = .next t ∧
    let u := s.settled
    let answered : Prop := u.part = .running ∧ u.resetHeld = false ∧
      (∃ r p, u.sc.flight = some ⟨r, p, .program⟩) ∧ 2 ≤ reset.place
    t.store.programming = none ∧
    (s.store.programming = none → t.store.cells = s.store.cells) ∧
    (∀ n bytes, s.store.programming = some (n, bytes) → bytes.length = 8 →
      (reset.cause = .rst ∨ answered → t.store.cells.readBytes (64 + 8 * n.val) 8 = bytes) ∧
      (reset.cause = .powerOn → ¬ answered →
        byteSum (t.store.cells.readBytes (64 + 8 * n.val) 8) + BitVec.ofNat 8 n.val ≠ 0#8) ∧
      ∀ a, (a < 64 + 8 * n.val ∨ 64 + 8 * n.val + 8 ≤ a) → t.store.cells.read a = s.store.cells.read a)

/-- MISSING_ACK at every point of a transfer (R141, R145). The transfer ends at the byte that is not acknowledged, before
the event that the clock held low keeps SC from, or before the start condition that the data line held low keeps it from;
`failed` is what follows, from the fault and what SC has sent. At any other place nothing has happened. -/
def Sys2Proof.Machine.State.endsAtTheFault (s : State) (transfer : List LineEvent)
    (failed : MissingAck → List LineEvent → State) : Prop :=
  ∀ place : Nat,
    let sent := transfer.take place
    let ahead := transfer[place]?
    let answer (cause : AckFault) := exec (.missingAck ⟨cause, place⟩) s
    (∀ b, ahead = some (.send b) →
      answer .byteNotAcknowledged = .next (failed ⟨.byteNotAcknowledged, place⟩ (sent ++ [.send b]))) ∧
    ((∀ b, ahead ≠ some (.send b)) → answer .byteNotAcknowledged = .next s) ∧
    (∀ e, ahead = some e → e ≠ .start → answer .clockHeldLow = .next (failed ⟨.clockHeldLow, place⟩ sent)) ∧
    (ahead = none ∨ ahead = some .start → answer .clockHeldLow = .next s) ∧
    (ahead = some .start ∨ ahead = some .repeatedStart → answer .dataHeldLow = .next (failed ⟨.dataHeldLow, place⟩ sent)) ∧
    (ahead ≠ some .start → ahead ≠ some .repeatedStart → answer .dataHeldLow = .next s)

/-- A transfer of the load from a memory address on (R168, R170): the address written, a repeated start, and 64 bytes read,
each acknowledged but the last. -/
def Sys2Proof.Machine.loadEvents (a : Nat) : List LineEvent :=
  [.start, .send 0xA0#8, .send (BitVec.ofNat 8 (a / 256)), .send (BitVec.ofNat 8 a), .repeatedStart, .send 0xA1#8] ++
    List.replicate 63 (.receive true) ++ [.receive false, .stop]

/-- RESET_END, LOADER_POLL and LOAD_POLL_TIMEOUT (R167, R168, R172): the end of the reset starts the load; an
acknowledged poll leads to the header, any other is repeated; 25 ms without an acknowledge lead to BYPASS. MISSING_ACK
at any point of the header read or of a record transfer (R141, R168, R172) also ends the load in BYPASS. Three clauses are
the model's choice: it judges no record of the transfer it cuts off (log 32), in the opening poll it changes nothing (log
18), and the line is released data first, also after the timeout (log 34). -/
def Obligations.ResetEndAndOpeningPoll : Prop :=
  (∀ s : State, s.resetHeld = true → exec .resetEnd s = .next { s with resetHeld := false, part := .loading }) ∧
  (∀ (acked : Bool) (s : State), s.part = .loading → s.resetHeld = false → s.sc.loader = .poll →
    exec (.loaderPoll acked) s = .next { s with
      sc := { s.sc with loader := if acked = true then .header else .poll }
      ports := { s.ports with line := [.start, .send 0xA1#8, .stop] } }) ∧
  (∀ s : State, s.part = .loading → s.resetHeld = false → s.sc.loader = .poll →
    exec .loadPollTimeout s = .next { s with
      part := .bypass
      sc := { s.sc with loader := .done, header := none }
      ports := { s.ports with line := [.releaseData, .releaseClock] } }) ∧
  (∀ s : State, s.part = .loading → s.resetHeld = false → s.due = [] →
    let failed (fault : MissingAck) (sent : List LineEvent) : State := { s with
      part := .bypass
      sc := { s.sc with loader := .done, header := none }
      ports := { s.ports with line :=
        sent ++ (if fault.cause = .byteNotAcknowledged then [.stop] else []) ++ [.releaseData, .releaseClock] } }
    (s.sc.loader = .header → s.transfer = loadEvents 0 ∧ s.endsAtTheFault (loadEvents 0) failed) ∧
    (∀ j, s.sc.loader = .records j →
      s.transfer = loadEvents (64 + 64 * j) ∧ s.endsAtTheFault (loadEvents (64 + 64 * j)) failed) ∧
    (s.sc.loader = .poll → s.transfer = [.start, .send 0xA1#8, .stop] ∧
      ∀ fault, exec (.missingAck fault) s = .next s))

/-- The six tests of R169 on the 64 header bytes. -/
def Sys2Proof.Machine.headerPasses (h : Nat → Nat) : Prop :=
  let base (i : Nat) : Nat := h i * 65536 + h (i + 1) * 256 + h (i + 2)
  let two (i : Nat) : Nat := h i * 256 + h (i + 1)
  let apart (a n b m : Nat) : Prop := a + n ≤ b ∨ b + m ≤ a
  h 0 = 0x5C ∧
  ((List.range 64).map h).sum % 256 = 0 ∧
  (h 1 = 0 ∨ h 1 = 1) ∧
  (base 2 + 4095 < 262144 ∧ base 5 + 2047 < 262144 ∧ base 8 + 23 < 262144) ∧
  (apart (base 2) 4096 (base 5) 2048 ∧ apart (base 2) 4096 (base 8) 24 ∧ apart (base 5) 2048 (base 8) 24) ∧
  ((8 ≤ h 13 ∧ h 13 ≤ 255) ∧ h 14 ≤ 31 ∧ h 15 ≤ 63 ∧ (8 ≤ h 16 ∧ h 16 ≤ 200) ∧
    (100 ≤ two 17 ∧ two 17 ≤ 65535) ∧ (100 ≤ two 19 ∧ two 19 ≤ 65535) ∧ (100 ≤ two 21 ∧ two 21 ≤ 65535) ∧
    (1 ≤ h 23 ∧ h 23 ≤ 63) ∧ two 11 < 4096)

/-- HEADER_READ (R169, R172, R177): a header that passes the six tests is held, with its role, bases and parameters, and
the records are next; any other ends the load in BYPASS. The whole transfer of bytes 0 to 63 is driven (R168), and the line
is released when the load ends, the data line first, which is the model's choice (log 34). Nothing but the part state, SC's
loader and the line changes. -/
def Obligations.HeaderReadJudgesTheHeader : Prop :=
  ∀ s : State, s.part = .loading → s.resetHeld = false → s.sc.loader = .header →
    let h (i : Nat) : Nat := (s.store.cells.read i).toNat
    ∃ t, exec .headerRead s = .next t ∧
      { t with part := s.part, sc := { t.sc with loader := s.sc.loader, header := s.sc.header }, ports := s.ports } = s ∧
      (headerPasses h → t.ports = { s.ports with line := loadEvents 0 }) ∧
      (¬ headerPasses h → t.ports = { s.ports with line := loadEvents 0 ++ [.releaseData, .releaseClock] }) ∧
      (headerPasses h → t.part = .loading ∧ t.sc.loader = .records 0 ∧
        ∃ r, t.sc.header = some r ∧
          r.role = (if h 1 = 0 then .lead else .follow) ∧
          r.bases.sample.toNat = h 2 * 65536 + h 3 * 256 + h 4 ∧
          r.bases.route.toNat = h 5 * 65536 + h 6 * 256 + h 7 ∧
          r.bases.directive.toNat = h 8 * 65536 + h 9 * 256 + h 10 ∧
          r.params.idle.toNat = h 11 * 256 + h 12 ∧
          r.params.proveRun = h 13 ∧ r.params.quietLimit = h 14 ∧ r.params.guardFrames = h 15 ∧
          r.params.noticeLead = h 16 ∧ r.params.noticeWait = h 17 * 256 + h 18 ∧
          r.params.joinWait = h 19 * 256 + h 20 ∧ r.params.orphanFrames = h 21 * 256 + h 22 ∧
          r.params.holdLimit = h 23) ∧
      (¬ headerPasses h → t.part = .bypass ∧ t.sc.header = none ∧ t.sc.loader = .done)

/-- One retirement record judged by the table of R170, from the bytes the store holds (R177): void, skipped with
RECORD_SKIPPED and the slot, or restored to STRANDED with its slot HELD, its counts, runs and marks as after reset (R85). -/
def Obligations.RecordJudgedByTheLoadersTable : Prop :=
  ∀ (s : State) (n : SlotNo),
    let b (i : Nat) : Nat := (s.store.cells.read (64 + 8 * n.val + i)).toNat
    let checkHolds := (((List.range 8).map b).sum + n.val % 256) % 256 = 0
    let number := b 1 * 256 + b 2
    let label : Word := BitVec.ofNat 16 (b 3 * 256 + b 4)
    let skipped : State := { s with du := s.du.raised .recordSkipped (Fin.ofNat 2048 n.val) }
    (b 0 ≠ 0xA7 → s.judgeRecord n = s) ∧
    (b 0 = 0xA7 → ¬ (checkHolds ∧ number ≤ 2047) → s.judgeRecord n = skipped) ∧
    (b 0 = 0xA7 → checkHolds → number ≤ 2047 →
      ((s.channel (Fin.ofNat 2048 number)).phase ≠ .copper ∨
        ∃ p ∈ s.cm, p.2.phase ≠ .copper ∧ p.2.label = some label) →
      s.judgeRecord n = skipped) ∧
    (b 0 = 0xA7 → checkHolds → number ≤ 2047 → (s.channel (Fin.ofNat 2048 number)).phase = .copper →
      (∀ p ∈ s.cm, p.2.phase ≠ .copper → p.2.label ≠ some label) →
      let t := s.judgeRecord n
      t.channel (Fin.ofNat 2048 number) =
        { phase := .stranded, label := some label, idle := some (BitVec.ofNat 12 (b 5 * 256 + b 6)),
          slot := some n, context := none, lag := 0, collapsed := true, cause := some .load, origin := none,
          pending := ⟨.idle, .idle, .live⟩, active := ⟨.idle, .idle, .live⟩ } ∧
      keepsOtherChannels (Fin.ofNat 2048 number) s t ∧
      t.slot n =
        { state := .held, channel := some (Fin.ofNat 2048 number), barClock := 0, latch := none, visible := none,
          holdCount := 0, orphanCount := 0, liveRun := 0, shadowRun := 0, peerAhead := false, peerShadow := false,
          followDue := false } ∧
      keepsOtherSlots (some n) s t ∧
      { t with cm := s.cm, sn := { t.sn with slots := s.sn.slots } } = s)

/-- RECORD_TRANSFER (R170, R171): transfer j judges the records of slots 8 j to 8 j + 7 in ascending order; the next
transfer follows, and the whole of transfer j is driven on the line; after transfer 127 LOAD_DONE is raised with the
number of channels restored and the part enters RUNNING with the header's bases, role and parameters and an EMPTY pairing
register. -/
def Obligations.RecordTransferAndEntryToRunning : Prop :=
  ∀ (j : Nat) (h : Header) (s : State), s.part = .loading → s.resetHeld = false → s.sc.loader = .records j → j ≤ 127 →
    s.sc.header = some h →
    let u := ([0, 1, 2, 3, 4, 5, 6, 7].map fun i => Fin.ofNat 1024 (8 * j + i)).foldl State.judgeRecord s
    ∃ t, exec .recordTransfer s = .next t ∧
      t.ports = { s.ports with line := loadEvents (64 + 64 * j) } ∧
      t.cm = u.cm ∧ t.sn = u.sn ∧ t.cp = s.cp ∧ t.ft = s.ft ∧ t.store = s.store ∧ t.due = s.due ∧
      t.pending = s.pending ∧ t.sc.queue = s.sc.queue ∧ t.sc.flight = s.sc.flight ∧ t.sc.fault = s.sc.fault ∧
      (j < 127 → t.part = .loading ∧ t.sc.loader = .records (j + 1) ∧ t.du = u.du ∧ t.bi = s.bi ∧ t.cl = s.cl ∧
        t.sc.header = some h ∧ t.sc.params = s.sc.params) ∧
      (j = 127 → t.part = .running ∧ t.sc.loader = .done ∧ t.bi.bases = some h.bases ∧ t.bi.pairing = none ∧
        t.cl = { s.cl with role := some h.role } ∧ t.sc.params = h.params ∧
        t.du = u.du.raised .loadDone (Fin.ofNat 2048 (u.cm.filter fun p => decide (p.2.phase ≠ .copper)).length))

/-! ## The frame timer and the frame boundary -/

/-- FMARK (R19, R21): a mark less than 62.5 microseconds after the last boundary, from either source, is ignored: no
boundary, no event, and the holdover timer goes on. -/
def Obligations.RuntMarkIsIgnored : Prop :=
  ∀ (time : Nat) (o : BoundaryOrder) (s : State), s.resetHeld = false → s.ft.boundarySeen = true →
    max s.ft.timer time < 125 →
    exec (.fmark time o) s = .next { s with ft := { s.ft with timer := max s.ft.timer time } }

/-- FMARK, HOLDOVER_ENTRY and HOLDOVER_BOUNDARY (R18 to R21): every row that makes a boundary adds one to the frame
number, 4095 being followed by 0, and restarts the holdover timer; a mark leaves LOCKED, with MARK_RESTORED when it was
HOLDOVER; the entry to HOLDOVER raises MARK_LOST; an internal boundary stays in HOLDOVER. That MARK_RESTORED and MARK_LOST
stand last in the queue then, behind the events raised inside the boundary, is the model's choice (log 23): R164 leaves
their place open. The rest stays: the retirement store, the ports, the bases, the roles, the parameter set, the loader and
the store fault, and of DU all but the events; in RUNNING with nothing due also the store queue, a write not in PAUSE, and,
as far as the order takes no carrier loss, SN's test or assignment first (log 2), the peer's notice, the link monitor, the
next number and the queues. The events are then one COLLAPSED for each channel that collapses, in ascending order (log 30),
and that of the mark. -/
def Obligations.BoundaryCountsTheFrameAndSetsTheMark : Prop :=
  ∀ (i : Instr) (o : BoundaryOrder) (s : State), boundaryOf i s = some o →
    ∃ t, exec i s = .next t ∧
      t.ft.frameNumber.toNat = (s.ft.frameNumber.toNat + 1) % 4096 ∧ t.ft.timer = 0 ∧ t.ft.boundarySeen = true ∧
      t.part = s.part ∧ t.resetHeld = false ∧ t.pending = s.pending ∧
      ((∃ time, i = .fmark time o) → t.ft.mark = .locked ∧
        (s.ft.mark = .holdover → t.du.lastRaised .markRestored)) ∧
      (i = .holdoverEntry o → t.ft.mark = .holdover ∧ t.du.lastRaised .markLost) ∧
      (i = .holdoverBoundary o → t.ft.mark = .holdover) ∧
      { t.frame with
        ft := s.ft
        bi := { t.frame.bi with pairing := s.bi.pairing }
        cl := { t.frame.cl with captures := s.cl.captures, sending := s.cl.sending }
        freeUsed := s.freeUsed } = s.frame ∧
      (s.steady → s.cl.sending = none →
        t.sc.queue = s.sc.queue ∧
        ((∀ r p m, s.sc.flight ≠ some ⟨r, p, .pause (m + 1)⟩) → t.sc.flight = s.sc.flight) ∧
        (¬ s.losesFirst o → t.sn.peer = s.sn.peer ∧ t.cl.huntCount = s.cl.huntCount ∧
          t.cl.lastNumber = s.cl.lastNumber ∧ t.cl.inHand = s.cl.inHand) ∧
        (o.noticeFirst = false → t.sn.nextNumber = s.sn.nextNumber) ∧
        (o.noticeFirst = false → o.assignFirst = false → ¬ s.losesFirst o →
          t.sn.queue = s.sn.queue ∧ t.cp.queue = s.cp.queue) ∧
        (o.noticeFirst = false → ¬ s.losesFirst o → s.channelsInOrder → s.consistent →
          ∃ collapsed : List Channel, collapsed.Pairwise (· < ·) ∧
            (∀ c, c ∈ collapsed ↔ (s.channel c).collapsed = false ∧ (t.channel c).collapsed = true) ∧
            let du := collapsed.foldl (fun d c => d.raised .collapsed c) s.du
            ((∃ time, i = .fmark time o) → t.du = if s.ft.mark = .holdover then du.raised .markRestored 0 else du) ∧
            (i = .holdoverEntry o → t.du = du.raised .markLost 0) ∧
            (i = .holdoverBoundary o → t.du = du)))

/-- A boundary in LOADING or BYPASS (R18 to R21, R171, R172): the frame timer acts on it, with its events, and nothing
else does. -/
def Obligations.BoundaryOutsideRunningActsOnTheFrameTimerAlone : Prop :=
  ∀ (o : BoundaryOrder) (s : State), s.part ≠ .running → s.due = [] →
    (∀ time, boundaryOf (.fmark time o) s = some o → s.ft.mark = .locked →
      exec (.fmark time o) s = .next { s with
        ft := { frameNumber := s.ft.frameNumber + 1, mark := .locked, timer := 0, boundarySeen := true } }) ∧
    (∀ time, boundaryOf (.fmark time o) s = some o → s.ft.mark = .holdover →
      exec (.fmark time o) s = .next { s with
        ft := { frameNumber := s.ft.frameNumber + 1, mark := .locked, timer := 0, boundarySeen := true }
        du := s.du.raised .markRestored 0 }) ∧
    (boundaryOf (.holdoverEntry o) s = some o →
      exec (.holdoverEntry o) s = .next { s with
        ft := { frameNumber := s.ft.frameNumber + 1, mark := .holdover, timer := 0, boundarySeen := true }
        du := s.du.raised .markLost 0 }) ∧
    (boundaryOf (.holdoverBoundary o) s = some o →
      exec (.holdoverBoundary o) s = .next { s with
        ft := { frameNumber := s.ft.frameNumber + 1, mark := .holdover, timer := 0, boundarySeen := true } })

/-- A boundary in RUNNING, routes and fibre words (R25, R113, R115 to R117, R119 to R121). Every pending route becomes the
active route. A channel whose IN leaves FIBRE loses its register, and one whose IN takes it starts from its idle pattern.
The word is chosen from the delay line at the lag while a context is held, else from the visible arrival; it carries the
held supervision in a guarded frame, and enters an activity mark. Once the guard has ended a quiet channel collapses. The
boundary that ends the guard leaves the choice to GUARD_END (log 1). That pending routes follow the phases and that the
blocks agree are invariants (EveryStepKeepsTheStoreTheQueuesAndTheRoutes, EveryStepKeepsTheBlocksConsistent); `lost` is a
carrier loss the order takes first. A channel whose IN is not FIBRE keeps every other field of its record, but where the
order takes first an assignment (ENROLLED, FALLEN), SN's test (JOINING) or the carrier loss (PROVEN, CUTTING). -/
def Obligations.PendingRoutesBecomeActiveAtTheBoundary : Prop :=
  ∀ (i : Instr) (o : BoundaryOrder) (s : State), s.steady → s.cl.sending = none → s.routesFollow →
    boundaryOf i s = some o →
    ∃ t, exec i s = .next t ∧ (∀ c, (t.channel c).active = (s.channel c).pending) ∧
      (s.channelsInOrder → s.consistent → ∀ c, let r := s.channel c
        let lost := s.losesFirst o
        (r.pending.inn ≠ .fibre → t.register c = none ∧
          (o.assignFirst = false ∨ r.phase ∉ [.enrolled, .fallen] → o.noticeFirst = false ∨ r.phase ≠ .joining →
            ¬ lost ∨ r.phase ∉ [.proven, .cutting, .carried, .retired] → t.channel c = { r with active := r.pending })) ∧
        ∀ n idle, r.pending.inn = .fibre → r.slot = some n → r.idle = some idle →
          let y := (s.register c).getD ⟨idle, idle, idle, 0, false, false⟩
          let arrived : Option Pattern := match (s.slot n).latch with
            | none => none
            | some a => if a.damaged = true then none else some a.word
          let chosen (source : Option Pattern) (held : Option Pattern) : FibreRegister :=
            let z : FibreRegister := match source with
              | some w => { y with carriedWord := w, lastGood := w, repeats := 0, silent := false }
              | none =>
                let repeats := min 64 (y.repeats + 1)
                { y with repeats := repeats, carriedWord := if repeats ≤ s.sc.params.holdLimit then y.lastGood else idle }
            { z with frameWord := match held with
              | none => z.carriedWord
              | some last => last.extractLsb' 8 4 ++ z.carriedWord.extractLsb' 0 8 }
          let became (z : FibreRegister) : Prop := t.register c = some z ∧
            (s.sc.params.holdLimit < z.repeats → z.silent = false → .slotSilent c ∈ t.due)
          y.guardEnding = false →
          (r.context = none → became (chosen arrived none) ∧ (lost ∨ t.channel c = { r with active := r.pending })) ∧
          (∀ k x, r.context = some k → s.context k = some x → let delay := (arrived :: x.delay).take 16
            let quiet := r.lag = 0 ∨ (x.window.filter id).length ≤ s.sc.params.quietLimit ∨
              y.carriedWord.extractLsb' 8 4 = idle.extractLsb' 8 4
            let marked (w : Pattern) : Context := { x with
              delay := delay
              guardRemaining := x.guardRemaining - 1
              window := (decide (some w ≠ x.lastSubstituted) :: x.window).take 32
              lastSubstituted := some w }
            (x.guardRemaining = 1 → t.register c = some { y with guardEnding := true } ∧ .guardEnd c ∈ t.due) ∧
            (x.guardRemaining ≠ 1 → lost → became (chosen arrived none)) ∧
            (∀ last, 1 < x.guardRemaining → ¬ lost → x.lastCopper = some last →
              let z := chosen (delay.getD r.lag.val none) (some last)
              became z ∧ t.context k = some (marked z.carriedWord) ∧ t.channel c = { r with active := r.pending }) ∧
            (x.guardRemaining = 0 → ¬ lost → ¬ quiet →
              let z := chosen (delay.getD r.lag.val none) none
              became z ∧ t.context k = some (marked z.carriedWord) ∧ t.channel c = { r with active := r.pending }) ∧
            (x.guardRemaining = 0 → ¬ lost → quiet → became (chosen arrived none) ∧ t.context k = none ∧
              t.channel c = { r.moved .carried .fibre .pass .live with
                active := ⟨.fibre, .pass, .live⟩, context := none, lag := 0, collapsed := true } ∧
              (⟨.collapsed, c⟩ ∈ t.du.events ∨ t.du.lost = true))))

/-- A boundary in RUNNING, SN and SC (R76, R87, R88, R91, R93, R96, R99, R104, R148, R50): every arrival latch becomes the
visible arrival and is emptied, the hold count of a slot in use steps by that arrival, and the bar clock of a BARRED slot
by one, with BAR_CLOCK_EXPIRY due at 0; the rest of a slot entry stays unless the order takes SN's test or the carrier loss
first. A schedule falls by one and is removed at 0, with CUT_DUE due; a set follow-due mark makes FOLLOW_CUT due; the
boundaries since the first frame of the outstanding notice rise by one; a carrier loss taken first withdraws the CUT and
cancels the schedules. PAUSE falls by one, with REINSTATEMENT_RETRY due at 0; and NOTICE_OUTSTANDING and CONTEXT_ASSIGN are
due unless the order takes them first (log 2). -/
def Obligations.LatchesBecomeVisibleAtTheBoundary : Prop :=
  ∀ (i : Instr) (o : BoundaryOrder) (s : State), s.steady → s.cl.sending = none → boundaryOf i s = some o →
    ∃ t, exec i s = .next t ∧ (∀ n,
      let e := s.slot n
      let hold := match e.latch with
        | some a => if a.damaged = true then min 65535 (e.holdCount + 1) else 0
        | none => min 65535 (e.holdCount + 1)
      let inUse := e.state = .reserved ∨ e.state = .held ∨ e.state = .releasing
      (t.slot n).visible = e.latch ∧ (t.slot n).latch = none ∧
      (o.noticeFirst = false ∨ s.consistent →
        (inUse → (t.slot n).holdCount = hold) ∧ (e.state = .barred → (t.slot n).barClock = e.barClock - 1)) ∧
      (o.noticeFirst = false → ¬ s.losesFirst o → t.slot n = { e with
        visible := e.latch
        latch := none
        holdCount := if inUse then hold else e.holdCount
        barClock := if e.state = .barred then e.barClock - 1 else e.barClock }) ∧
      (e.state = .barred → e.barClock = 1 → .barClockExpiry n ∈ t.due) ∧
      (∀ c, e.followDue = true → e.channel = some c → .followCut c n ∈ t.due)) ∧
      (∀ c x, Assoc.find s.sn.schedules c = some x →
        (x.toGo ≤ 1 → .cutDue c x.slot ∈ t.due) ∧
        (s.schedulesSingle → ¬ s.losesFirst o →
          Assoc.find t.sn.schedules c = if x.toGo ≤ 1 then none else some ⟨x.slot, x.toGo - 1⟩) ∧
        (s.schedulesSingle → s.losesFirst o → Assoc.find t.sn.schedules c = none)) ∧
      (∀ c, Assoc.find s.sn.schedules c = none → Assoc.find t.sn.schedules c = none) ∧
      (∀ x, s.sn.outstanding = some x →
        (¬ s.losesFirst o ∨ x.kind ≠ .cut → t.sn.outstanding = some { x with firstSent := match x.firstSent with
          | none => some (x.countdown, 0)
          | some (first, taken) => some (first, taken + 1) }) ∧
        (s.channelsInOrder → s.consistent → s.losesFirst o → x.kind = .cut → o.noticeFirst = false →
          t.sn.outstanding = none)) ∧
      (∀ r p m, s.sc.flight = some ⟨r, p, .pause (m + 1)⟩ → t.sc = { s.sc with flight := some ⟨r, p, .pause m⟩ } ∧
        (m = 0 → .reinstatementRetry ∈ t.due)) ∧
      (o.noticeFirst = false → .noticeOutstanding ∈ t.due) ∧ (o.assignFirst = false → .contextAssign ∈ t.due)

/-- A boundary in RUNNING, the contexts (R52, R54, R98, R113): into the delay line of every context that was owned before,
the visible arrival that the boundary makes for its owner's slot is pushed if it is present and not damaged, and HOLD
otherwise. In JOINING the join clock rises by one, with JOIN_TIMEOUT due from JoinWait on, and the retry gap falls by one,
with RETRY_GAP_END due at 0; in CARRIED the guard falls by one, with GUARD_END due at 0. The scoreboard, the active frames
and the streak stay unless the order takes a carrier loss first; the context of a JOINING, SHADOW, PROVEN or CUTTING owner
is still held after the boundary, but where SN's test taken first ends a JOIN (log 2). -/
def Obligations.DelayLinesArePushedAtTheBoundary : Prop :=
  ∀ (i : Instr) (o : BoundaryOrder) (s : State), s.steady → s.cl.sending = none → boundaryOf i s = some o →
    ∃ t, exec i s = .next t ∧
      (∀ k x y, s.context k = some x → t.context k = some y →
        (x.delay.length = 16 → y.delay.tail = x.delay.dropLast ∧ y.delay.head? = some
          (match (s.channel x.owner).slot with
          | none => none
          | some n =>
            match (s.slot n).latch with
            | none => none
            | some a => if a.damaged = true then none else some a.word)) ∧
        y.owner = x.owner ∧ y.lastCopper = x.lastCopper ∧ y.joinAttempts = x.joinAttempts ∧
        y.cutAttempts = x.cutAttempts ∧
        (¬ s.losesFirst o → y.runs = x.runs ∧ y.activeSeen = x.activeSeen ∧ y.streak = x.streak) ∧
        y.joinClock = (if (s.channel x.owner).phase = .joining then min 65535 (x.joinClock + 1) else x.joinClock) ∧
        y.retryGap = (if (s.channel x.owner).phase = .joining then x.retryGap - 1 else x.retryGap) ∧
        y.guardRemaining = if (s.channel x.owner).phase = .carried then x.guardRemaining - 1 else x.guardRemaining) ∧
      (∀ k x, s.context k = some x →
        (s.channelsInOrder → s.consistent → (s.channel x.owner).phase ∈ [.joining, .shadow, .proven, .cutting] →
          o.noticeFirst = false ∨ (s.channel x.owner).phase ≠ .joining → ∃ y, t.context k = some y) ∧
        ((s.channel x.owner).phase = .joining → s.sc.params.joinWait ≤ min 65535 (x.joinClock + 1) →
          .joinTimeout x.owner k ∈ t.due) ∧
        ((s.channel x.owner).phase = .joining → x.retryGap = 1 → .retryGapEnd x.owner k ∈ t.due) ∧
        ((s.channel x.owner).phase = .carried → x.guardRemaining = 1 → .guardEnd x.owner ∈ t.due))

/-- A boundary in RUNNING (R15, R67, R70, R71, R91, R107): whatever the order, one carrier frame is sent, with the number of
the frame that begins, the own role, the notice and the reply that SN holds when it is built, and at most one record a slot
in ascending order, LAST on the last alone; the captures are discarded, and the pairing register is EMPTY. An outstanding
notice is in the frame; with none outstanding the head request is in it when the order takes SN's test first, and no notice
when it does not (log 2). After a carrier loss taken first the reply is NONE. -/
def Obligations.BoundarySendsOneCarrierFrame : Prop :=
  ∀ (i : Instr) (o : BoundaryOrder) (s : State) (r : Role), s.steady → s.cl.sending = none → boundaryOf i s = some o →
    s.cl.role = some r →
    ∃ t f, exec i s = .next t ∧ t.cl.sending = some f ∧ t.cl.captures = [] ∧ t.bi.pairing = none ∧
      f.number = t.ft.frameNumber ∧ f.role = r ∧
      let none' : Prop := f.notice.kind = none ∧ f.notice.slot = 0 ∧ f.notice.label = 0 ∧ f.notice.countdown = 0
      let shows (n : Outstanding) : Prop :=
        f.notice = ⟨some n.kind, n.number, n.slot, n.label, BitVec.ofNat 8 n.countdown⟩
      (t.sn.outstanding = none → none') ∧ (∀ n, t.sn.outstanding = some n → shows n) ∧
      f.reply = t.sn.peer.map (fun p => ⟨p.number, p.reply⟩) ∧
      (s.sn.outstanding = none → o.noticeFirst = false ∨ s.sn.queue = [] ∧ o.assignFirst = false → none') ∧
      (∀ n, s.sn.outstanding = some n → ¬ s.losesFirst o ∨ n.kind ≠ .cut → shows n) ∧
      (∀ c rest, s.sn.outstanding = none → o.noticeFirst = true →
        (∀ n l, s.sn.queue = ⟨.join, c⟩ :: rest → (s.channel c).phase = .joining → (s.channel c).label = some l →
          (s.slot n).state = .free → (∀ m, m < n → (s.slot m).state ≠ .free) →
          f.notice = ⟨some .join, s.sn.nextNumber, n, l, 0⟩) ∧
        (∀ n, s.sn.queue = ⟨.cut, c⟩ :: rest → (s.channel c).slot = some n → ¬ s.losesFirst o →
          f.notice = ⟨some .cut, s.sn.nextNumber, n, 0, BitVec.ofNat 8 s.sc.params.noticeLead⟩) ∧
        (∀ n, s.sn.queue = ⟨.leave, c⟩ :: rest → (s.channel c).slot = some n →
          f.notice = ⟨some .leave, s.sn.nextNumber, n, 0, 0⟩)) ∧
      (¬ s.losesFirst o → f.reply = s.sn.peer.map fun p => ⟨p.number, p.reply⟩) ∧
      (s.losesFirst o → f.reply = none) ∧
      (f.records.map SlotRecord.slot).Pairwise (· < ·) ∧
      (∀ x ∈ f.records.dropLast, x.last = false) ∧ (∀ x, f.records.getLast? = some x → x.last = true)

/-- The records of that frame (R15, R68, R69, R70): one for each channel whose TAP in the frame just ended was SHADOW or
LIVE and whose record names a slot when the frame is built, LIVE if the TAP was LIVE, from the channel's capture, or else
the idle pattern marked DAMAGED; and no other. The order of the boundary changes none of this; the slot is the one that the
record names in the state before, but for a channel whose JOIN SN's test taken first makes outstanding or ends (log 2). An
open pairing becomes EMPTY: a wanted capture of it is handed over damaged, with the idle sample code and the supervision
held, and stands in this frame if the order takes it first; one not wanted hands over nothing. The channel map is in order,
and no two such channels name one slot. -/
def Obligations.FrameCarriesARecordForEachTappedChannel : Prop :=
  ∀ (i : Instr) (o : BoundaryOrder) (s : State), s.steady → s.cl.sending = none → boundaryOf i s = some o →
    s.channelsInOrder →
    let broken (c : Channel) : Prop :=
      o.captureFirst = true ∧ ∃ q, s.bi.pairing = some q ∧ q.wanted = true ∧ q.channel = c
    ∃ t f, exec i s = .next t ∧ t.cl.sending = some f ∧ t.bi.pairing = none ∧ t.cl.captures = [] ∧
      (∀ c, o.noticeFirst = false ∨ ⟨.join, c⟩ ∉ s.sn.queue ∧ (s.channel c).phase ≠ .enrolled →
        (t.channel c).slot = (s.channel c).slot) ∧
      ((∀ c d n, (s.channel c).active.tap ≠ .none → (s.channel d).active.tap ≠ .none →
          (t.channel c).slot = some n → (t.channel d).slot = some n → c = d) →
        (∀ c n, (s.channel c).active.tap ≠ .none → (t.channel c).slot = some n →
          ∃ x ∈ f.records, x.slot = n ∧ (x.live = true ↔ (s.channel c).active.tap = .live) ∧
            (∀ y, ¬ broken c → Assoc.find s.cl.captures c = some y → x.word = y.word ∧ x.damaged = y.damaged) ∧
            (∀ p, ¬ broken c → Assoc.find s.cl.captures c = none → (s.channel c).idle = some p →
              x.word = p ∧ x.damaged = true) ∧
            (∀ q p, broken c → s.bi.pairing = some q → (s.channel c).idle = some p →
              x.word = q.supervision ++ p.extractLsb' 0 8 ∧ x.damaged = true)) ∧
        ∀ x ∈ f.records, ∃ c, (s.channel c).active.tap ≠ .none ∧ (t.channel c).slot = some x.slot)

/-- A boundary in RUNNING (R76, R80, R81): the reception mark becomes NONE and the loss count steps by it; the count of 16
makes LINK_DOWN due in UP and HUNT_LOSS in HUNTING, or, when the order takes the loss first, has left UP. -/
def Obligations.LossCountStepsAtTheBoundary : Prop :=
  ∀ (i : Instr) (o : BoundaryOrder) (s : State), s.steady → s.cl.sending = none → boundaryOf i s = some o →
    let count := if s.cl.link = .dark then s.cl.lossCount
      else if s.cl.markGood = true then 0 else min 16 (s.cl.lossCount + 1)
    ∃ t, exec i s = .next t ∧ t.cl.markGood = false ∧
      (o.lossFirst = false ∨ s.cl.link ≠ .up ∨ count < 16 → t.cl.link = s.cl.link ∧ t.cl.lossCount = count) ∧
      (o.lossFirst = false → s.cl.link = .up → count = 16 → .linkDown ∈ t.due) ∧
      (s.cl.link = .hunting → count = 16 → .huntLoss ∈ t.due) ∧
      (o.lossFirst = true → s.cl.link = .up → count = 16 → t.cl.link = .dark ∧ t.cl.lossCount = 0)

/-! ## The shelf bus -/

/-- R5, for PLAIN_ACCESS and every other bus row whose access is plain in RUNNING: it passes unchanged, and nothing else
changes; the pairing register, the channel map, the context pool, the captures and DU stay as they are. -/
def Obligations.PlainAccessPassesUnchanged : Prop :=
  ∀ (i : Instr) (x : Access) (b : Bases) (s : State), busAccess i = some x → s.steady → s.bi.bases = some b →
    b.plain x → exec i s = .next { s with ports := s.ports.passed x }

/-- Every bus row in LOADING, in BYPASS and while RST is asserted (R3): the access passes unchanged, and nothing else
changes. -/
def Obligations.AccessOutsideRunningPassesUnchanged : Prop :=
  ∀ (i : Instr) (x : Access) (s : State), busAccess i = some x → s.due = [] →
    (s.part ≠ .running ∨ s.resetHeld = true) → exec i s = .next { s with ports := s.ports.passed x }

/-- INCOMING_SAMPLE_WRITE (R6, R7, R8, R17): by the IN setting of the channel's active route the word is passed, and the
copper word handed to the context the record names; or sent with the fibre word of the frame; or with the idle pattern;
the line flags are kept and the parity of a substituted word is good. -/
def Obligations.IncomingSampleWriteActsByTheInSetting : Prop :=
  ∀ (a : Addr) (w : BusWord) (k : Nat) (b : Bases) (c : Channel) (s : State), s.steady → s.bi.bases = some b →
    b.sampleAt a k → c.val = k % 2048 →
    let passed : State := { s with ports := s.ports.passed ⟨.engine, a, .write w⟩ }
    ((s.channel c).active.inn = .pass → (s.channel c).context = none →
      exec (.incomingSampleWrite a w) s = .next passed) ∧
    (∀ j, (s.channel c).active.inn = .pass → (s.channel c).context = some j →
      exec (.incomingSampleWrite a w) s =
        .next (passed.handOver c j (w.data.extractLsb' 0 12) (parityGood w))) ∧
    (∀ p, ((s.channel c).active.inn = .fibre ∧ (s.register c).map FibreRegister.frameWord = some p ∨
        (s.channel c).active.inn = .idle ∧ (s.channel c).idle = some p) →
      ∃ v : BusWord, parityGood v = true ∧ v.data.extractLsb' 12 4 = w.data.extractLsb' 12 4 ∧
        v.data.extractLsb' 0 12 = p ∧
        exec (.incomingSampleWrite a w) s = .next { s with
          ports := { s.ports with storeSide := some (.write .engine a v) } })

/-- The hand-over of a copper word (R55, R56, R57, R58, R60): what makes it active, and what the scoreboard or the
mismatch streak then does, with PROOF_SUCCESS, PROOF_FAILURE or DEMOTION due. -/
def Obligations.HandOverIsJudgedByTheOwnersPhase : Prop :=
  ∀ (c : Channel) (k : CtxNo) (word : Pattern) (good : Bool) (x : Context) (s : State), s.context k = some x →
    let t := s.handOver c k word good
    let entry (l : Nat) : Option Pattern := x.delay.getD l none
    (x.owner ≠ c ∨ good = false ∨ x.lastCopper = some word → t = s) ∧
    (x.owner = c → good = true → x.lastCopper ≠ some word →
      { t with cp := s.cp, due := s.due } = s ∧ t.cp.queue = s.cp.queue ∧ keepsOtherContexts (some k) s t ∧
      ∃ y, t.context k = some y ∧ y.lastCopper = some word ∧
        { y with lastCopper := x.lastCopper, runs := x.runs, activeSeen := x.activeSeen, streak := x.streak } = x ∧
        (x.lastCopper = none ∨ (s.channel c).phase ∉ [.shadow, .proven, .cutting] →
          y = { x with lastCopper := some word } ∧ t.due = s.due) ∧
        (∀ last, x.lastCopper = some last → (s.channel c).phase = .shadow → x.delay.length = 16 → x.runs.length = 16 →
          y.streak = x.streak ∧
          (∀ l, l < 16 → y.runs.getD l 0 = match entry l with
            | none => x.runs.getD l 0
            | some w => if w = word then min 255 (x.runs.getD l 0 + 1) else 0) ∧
          ((∀ l, l < 16 → entry l = none) → y.activeSeen = x.activeSeen ∧ t.due = s.due) ∧
          ((∃ l, l < 16 ∧ entry l ≠ none) →
            y.activeSeen = min 4096 (x.activeSeen + 1) ∧
            (∀ l : Lag, s.sc.params.proveRun ≤ y.runs.getD l.val 0 →
              (∀ m, m < l.val → y.runs.getD m 0 < s.sc.params.proveRun) → t.due = s.due ++ [.proofSuccess c k l]) ∧
            ((∀ m, m < 16 → y.runs.getD m 0 < s.sc.params.proveRun) →
              t.due = s.due ++ (if y.activeSeen = 4096 then [.proofFailure c k] else [])))) ∧
        (∀ last, x.lastCopper = some last →
          ((s.channel c).phase = .proven ∨ (s.channel c).phase = .cutting) →
          y.runs = x.runs ∧ y.activeSeen = x.activeSeen ∧
          (entry (s.channel c).lag.val = none → y.streak = x.streak) ∧
          (entry (s.channel c).lag.val = some word → y.streak = 0) ∧
          (∀ w, entry (s.channel c).lag.val = some w → w ≠ word → y.streak = min 4 (x.streak + 1)) ∧
          t.due = s.due ++ (if y.streak = 4 ∧ x.streak < 4 then [.demotion c k] else [])))

/-- ROUTE_READ (R10, R11, R13, R17): an OPEN pairing is broken, its wanted capture handed over damaged with the idle
sample code; the entry's CONNECTED then opens a pairing, or completes the capture at once and leaves the register EMPTY;
OUT = IDLE replaces the supervision returned, with fresh parity. Nothing else changes. -/
def Obligations.RouteReadOpensOrCompletesThePairing : Prop :=
  ∀ (a : Addr) (w : BusWord) (k : Nat) (b : Bases) (c : Channel) (s : State), s.steady → s.bi.bases = some b →
    b.apart → b.routeAt a k → c.val = k →
    let wanted : Bool := decide ((s.channel c).active.tap ≠ .none)
    let atOnce : Bool := wanted && !w.data.getLsbD 11
    ∃ t, exec (.routeRead a w) s = .next t ∧
      { t with
        bi := { t.bi with pairing := s.bi.pairing }
        cl := { t.cl with captures := s.cl.captures }
        ports := s.ports } = s ∧
      t.ports.line = s.ports.line ∧ t.ports.storeSide = some (.read .engine a) ∧
      t.bi.pairing = (if w.data.getLsbD 11 = true then
        some ⟨c, w.data.extractLsb' 12 4, wanted, !parityGood w⟩ else none) ∧
      ((s.channel c).active.out = .pass → t.ports.returned = some w) ∧
      (∀ p, (s.channel c).active.out = .idle → (s.channel c).idle = some p →
        ∃ v : BusWord, t.ports.returned = some v ∧ parityGood v = true ∧
          v.data.extractLsb' 0 12 = w.data.extractLsb' 0 12 ∧ v.data.extractLsb' 12 4 = p.extractLsb' 8 4) ∧
      (∀ p q, s.bi.pairing = some p → p.wanted = true → ¬ (p.channel = c ∧ atOnce = true) →
        (s.channel p.channel).idle = some q →
        Assoc.find t.cl.captures p.channel = some ⟨p.supervision ++ q.extractLsb' 0 8, true⟩) ∧
      (∀ q, atOnce = true → (s.channel c).idle = some q →
        Assoc.find t.cl.captures c = some ⟨w.data.extractLsb' 12 4 ++ q.extractLsb' 0 8, !parityGood w⟩) ∧
      (∀ d, ¬ (d = c ∧ atOnce = true) → (∀ p, s.bi.pairing = some p → p.wanted = true → p.channel ≠ d) →
        Assoc.find t.cl.captures d = Assoc.find s.cl.captures d)

/-- SAMPLE_READ (R12, R13, R17): with the register EMPTY the read passes; with it OPEN the pairing is completed, a wanted
capture holds the sample code read and the supervision of the register, damaged if either parity was bad, the register
becomes EMPTY, and OUT = IDLE returns the idle pattern with the line flags as read. Nothing else changes. -/
def Obligations.SampleReadCompletesThePairing : Prop :=
  ∀ (a : Addr) (w : BusWord) (k : Nat) (b : Bases) (s : State), s.steady → s.bi.bases = some b → b.sampleAt a k →
    (s.bi.pairing = none → exec (.sampleRead a w) s = .next { s with ports := s.ports.passed ⟨.engine, a, .read w⟩ }) ∧
    (∀ p, s.bi.pairing = some p → ∃ t, exec (.sampleRead a w) s = .next t ∧
      { t with
        bi := { t.bi with pairing := s.bi.pairing }
        cl := { t.cl with captures := s.cl.captures }
        ports := s.ports } = s ∧
      t.ports.line = s.ports.line ∧ t.ports.storeSide = some (.read .engine a) ∧ t.bi.pairing = none ∧
      (p.wanted = true → Assoc.find t.cl.captures p.channel =
        some ⟨p.supervision ++ w.data.extractLsb' 0 8, p.damaged || !parityGood w⟩) ∧
      (∀ d, ¬ (d = p.channel ∧ p.wanted = true) →
        Assoc.find t.cl.captures d = Assoc.find s.cl.captures d) ∧
      ((s.channel p.channel).active.out = .pass → t.ports.returned = some w) ∧
      (∀ q, (s.channel p.channel).active.out = .idle → (s.channel p.channel).idle = some q →
        ∃ v : BusWord, t.ports.returned = some v ∧ parityGood v = true ∧
          v.data.extractLsb' 12 4 = w.data.extractLsb' 12 4 ∧ v.data.extractLsb' 0 12 = q))

/-! ## Directive writes and report reads -/

/-- R153, for the rows that are D0 writes with good parity (ENROL, CUT, RETIRE, RECALL, WITHDRAW, INSPECT, SLOTVIEW, SET,
ABANDON, UNKNOWN_DIRECTIVE_CODE, each by its access): with no directive in progress it makes one from the code,
STEP, the tag and copies of the latches with their doubt marks, so that BUSY is set, and ends step mode; with one in
progress it sets OVERRUN. Nothing else changes, and the word reaches the store. -/
def Obligations.D0WriteStartsADirectiveOrSetsOverrun : Prop :=
  ∀ (i : Instr) (a : Addr) (code : BitVec 4) (low : BitVec 12) (u l : Bool) (b : Bases) (s : State),
    busAccess i = some ⟨.controller, a, d0Write code low u l⟩ → s.steady → s.bi.bases = some b → b.apart →
    b.directiveAt a 0 → parityGood ⟨code ++ low, u, l⟩ = true →
    let ports := s.ports.passed ⟨.controller, a, .write ⟨code ++ low, u, l⟩⟩
    (s.du.inProgress = none →
      exec i s = .next { s with
        ports := ports
        du := { s.du with
          inProgress := some {
            code := code, step := low.getLsbD 11, tag := low.extractLsb' 0 6, copies := s.du.latches, stepOf := none }
          stepMode := none } }) ∧
    (s.du.inProgress ≠ none → exec i s = .next { s with ports := ports, du := { s.du with overrun := true } })

/-- R152, for every directive write but a good one to D0 (PARAMETER_LATCH_WRITE, ATTENTION_MASK_WRITE,
DIRECTIVE_WRITE_OTHER, and a bad D0 write): a good write to D1 to D4 places the word in its latch and clears
its doubt mark, one to D7 gives each mask bit whose enable is set its value, one to D5 or D6 changes nothing in DU; a bad
write sets PARITY, and the doubt mark of D1 to D4, and nothing more. The word reaches the store as written. -/
def Obligations.DirectiveWritesLatchByTheirOffset : Prop :=
  ∀ (i : Instr) (a : Addr) (w : BusWord) (n : Nat) (b : Bases) (s : State),
    busAccess i = some ⟨.controller, a, .write w⟩ → s.steady → s.bi.bases = some b → b.apart → b.directiveAt a n →
    (n ≠ 0 ∨ parityGood w = false) →
    let good := parityGood w
    let latch (k : Nat) (x : Latch) : Latch :=
      if n = k then (if good = true then ⟨w.data, false⟩ else { x with doubt := true }) else x
    ∃ t, exec i s = .next t ∧ t.ports = s.ports.passed ⟨.controller, a, .write w⟩ ∧
      { t with ports := s.ports, du := s.du } = s ∧
      { t.du with latches := s.du.latches, mask := s.du.mask, parity := s.du.parity } = s.du ∧
      t.du.latches = ⟨latch 1 s.du.latches.d1, latch 2 s.du.latches.d2, latch 3 s.du.latches.d3,
        latch 4 s.du.latches.d4⟩ ∧
      t.du.parity = (if good = true then s.du.parity else true) ∧
      ∀ j, j < 4 → t.du.mask.getLsbD j =
        if n = 7 ∧ good = true ∧ w.data.getLsbD (8 + j) = true then w.data.getLsbD j else s.du.mask.getLsbD j

/-- A read of RPn (RP0_READ, RP6_READ, RP7_READ, RP8_READ, and the reads of the other words as PLAIN_ACCESS; R16, R160,
R163, R164): the report word as it stands, with fresh parity, is returned; then RP0 clears
OVERRUN, PARITY and the DONE source, RP6 in step mode with no directive in progress starts the next step or ends the
walk, RP7 removes the oldest event, RP8 clears LOST, and the others change nothing. That a step holds the STEP flag set,
and as its copies the latches as they stand at the read, though it reads none, is the model's choice (log 35). -/
def Obligations.ReportReadReturnsTheWordThenActs : Prop :=
  ∀ (i : Instr) (a : Addr) (w : BusWord) (n : Nat) (b : Bases) (s : State),
    busAccess i = some ⟨.controller, a, .read w⟩ → s.steady → s.bi.bases = some b → b.apart → b.reportAt a n →
    ∃ (t : State) (v : BusWord), exec i s = .next t ∧
      t.ports = { s.ports with storeSide := some (.read .controller a), returned := some v } ∧
      v.data = s.reportWord n ∧ parityGood v = true ∧ { t with ports := s.ports, du := s.du } = s ∧
      (n = 0 → t.du = { s.du with overrun := false, parity := false, doneSource := false }) ∧
      (n = 7 → t.du = { s.du with events := s.du.events.drop 1 }) ∧
      (n = 8 → t.du = { s.du with lost := false }) ∧
      (n = 6 → (s.du.inProgress ≠ none ∨ s.du.stepMode = none → t.du = s.du) ∧
        (∀ m, s.du.inProgress = none → s.du.stepMode = some m →
          let last := if m.kind = .inspect then 2047 else 1023
          (last ≤ m.last → t.du = { s.du with stepMode := none }) ∧
          (m.last < last → t.du = { s.du with
            inProgress := some {
              code := if m.kind = .inspect then 6 else 7, step := true, tag := m.tag, copies := s.du.latches,
              stepOf := some (m.kind, m.last + 1) } }))) ∧
      (n ≠ 0 → n ≠ 6 → n ≠ 7 → n ≠ 8 → t.du = s.du)

/-- The report words, the results of INSPECT and SLOTVIEW, and ATTN (R45, R65, R84, R109, R151, R158, R159, R163 to R165,
R175): what their fields show, with the numbers of the events, outcomes, phases, slot states, arrival kinds, stranding
causes and recall origins. -/
def Obligations.ReportWordsShowTheirOwners : Prop :=
  ∀ s : State,
    let rp (n : Nat) : Nat := (s.reportWord n).toNat
    let flag (b : Bool) : Nat := if b = true then 1 else 0
    let present (x : Option Nat) : Nat := match x with
      | none => 0
      | some v => 32768 + v
    let source (k : Nat) : Bool := s.sources.getLsbD k
    let mask (k : Nat) : Bool := s.du.mask.getLsbD k
    let event (k : EventKind) : Nat := 1 + [EventKind.proven, .proveFailed, .demoted, .joined, .joinFailed, .joinTimeout,
      .cutDone, .cutFailed, .followed, .collapsed, .retired, .recalled, .storeFailed, .left, .peerLeft, .orphaned,
      .fallen, .stranded, .unstranded, .slotSilent, .peerAhead, .peerShadow, .linkUp, .linkDown, .roleClash, .markLost,
      .markRestored, .recordSkipped, .loadDone].idxOf k
    let outcome : Nat := match s.du.outcome with
      | .done => 0
      | .phase => 1
      | .range => 2
      | .parity => 3
      | .full => 4
      | .link => 5
      | .label => 6
      | .code => 7
    let phase (p : Phase) : Nat := [Phase.copper, .enrolled, .joining, .shadow, .proven, .cutting, .carried, .retiring,
      .retired, .recalling, .stranded, .fallen, .leaving].idxOf p
    let slotState (x : SlotState) : Nat := match x with
      | .free => 0
      | .reserved => 1
      | .held => 2
      | .releasing => 3
      | .barred => 4
    let arrivalKind (x : ArrivalKind) : Nat := match x with
      | .shadow => 0
      | .live => 1
      | .unknown => 2
    let cause (r : ChannelRecord) : Nat := match r.phase, r.cause, r.origin with
      | .stranded, some .link, _ => 1
      | .stranded, some .silence, _ => 2
      | .stranded, some .load, _ => 3
      | .recalling, _, some .retired => 1
      | .recalling, _, some .stranded => 2
      | _, _, _ => 0
    rp 0 = 45056 + 2048 * flag s.du.inProgress.isSome + 1024 * flag s.du.overrun + 512 * flag s.du.parity +
      64 * outcome + s.du.tag.toNat ∧
    s.reportWord 1 = s.du.results.rp1 ∧ s.reportWord 2 = s.du.results.rp2 ∧ s.reportWord 3 = s.du.results.rp3 ∧
    s.reportWord 4 = s.du.results.rp4 ∧ s.reportWord 5 = s.du.results.rp5 ∧ s.reportWord 6 = s.du.results.rp6 ∧
    (s.du.events = [] → rp 7 = 0) ∧
    (∀ e rest, s.du.events = e :: rest → rp 7 = 2048 * event e.kind + e.channel.val) ∧
    (s.du.events.length ≤ 32 → rp 8 = 32768 * flag s.du.lost + s.du.events.length) ∧
    rp 9 = (match s.cl.peerRole with
        | none => 0
        | some .lead => 512
        | some .follow => 768) + (if s.cl.role = some .follow then 16 else 0) +
      (match s.cl.link with
        | .dark => 0
        | .hunting => 1
        | .up => 2) ∧
    rp 10 = 32768 * flag (decide (s.ft.mark = .holdover)) + s.ft.frameNumber.toNat ∧
    rp 11 = 64 - s.cp.contexts.length ∧
    (s.cp.queue.length ≤ 1024 → rp 12 = s.cp.queue.length) ∧
    (s.sn.queue.length ≤ 96 → rp 13 = s.sn.queue.length + (match s.sn.outstanding with
      | none => 0
      | some o => match o.kind with
        | .join => 16384
        | .cut => 32768
        | .leave => 49152)) ∧
    (s.sc.queue.length ≤ 16 → rp 14 =
      32768 * flag s.sc.flight.isSome + 16384 * flag s.sc.fault + s.sc.queue.length) ∧
    (source 3 = true ↔ s.du.events ≠ []) ∧ source 2 = s.du.lost ∧ (source 1 = true ↔ s.cl.link ≠ .up) ∧
    source 0 = s.du.doneSource ∧ rp 15 = 256 * s.sources.toNat + s.du.mask.toNat ∧
    (s.attn = true ↔ ∃ k, k < 4 ∧ source k = true ∧ mask k = true) ∧
    (∀ c : Channel, let r := s.channel c; let x := s.inspectResults c
      x.rp1.toNat = 64 * cause r + 32 * flag (decide (r.pending ≠ r.active)) + 16 * flag r.collapsed +
        phase r.phase ∧
      x.rp2.toNat = present (r.slot.map Fin.val) ∧
      x.rp3.toNat = present (r.context.map fun k => 256 * k.val + r.lag.val) ∧
      x.rp4.toNat = (r.label.map BitVec.toNat).getD 0 ∧
      x.rp5.toNat = present (r.idle.map BitVec.toNat) ∧
      x.rp6.toNat / 64 = min 1023 ((r.slot.map fun n => (s.slot n).holdCount).getD 0) ∧
      (r.context = none → x.rp6.toNat % 64 = 0) ∧
      ∀ k y, r.context = some k → s.context k = some y → y.window.length = 32 →
        x.rp6.toNat % 64 = (y.window.filter id).length) ∧
    (∀ n : SlotNo, let e := s.slot n; let x := s.slotviewResults n
      x.rp1.toNat = slotState e.state ∧ x.rp2.toNat = present (e.channel.map Fin.val) ∧
      x.rp3.toNat = (e.channel.map fun c => ((s.channel c).label.map BitVec.toNat).getD 0).getD 0 ∧
      x.rp4.toNat = 256 * min 255 e.holdCount + min 255 e.orphanCount ∧
      x.rp5.toNat = present (e.visible.map fun a =>
        16384 * flag a.damaged + 4096 * arrivalKind a.kind + a.word.toNat) ∧
      x.rp6.toNat = min 255 e.liveRun)

/-! ## The run of a directive -/

/-- DIRECTIVE_RUN (R154, R152): a code outside 1 to 9 is refused with CODE, and then a directive one of whose latches was
in doubt when it started with PARITY; its results read 0, BUSY clears, the DONE source is set, and nothing outside DU
changes. With no directive in progress nothing runs. -/
def Obligations.RunRefusesUnknownCodesAndDoubtedLatches : Prop :=
  ∀ s : State, s.due = [] →
    (s.du.inProgress = none → exec .directiveRun s = .next s) ∧
    (∀ d, s.du.inProgress = some d → d.stepOf = none →
      (d.code.toNat = 0 ∨ 9 < d.code.toNat →
        exec .directiveRun s = .next { s with du := s.du.completed d.tag .code ⟨0, 0, 0, 0, 0, 0⟩ }) ∧
      ((1 ≤ d.code.toNat ∧ d.code.toNat ≤ 8 ∧ d.copies.d1.doubt = true) ∨
        ((d.code = 1#4 ∨ d.code = 8#4) ∧ d.copies.d2.doubt = true) ∨
        (d.code = 1#4 ∧ (d.copies.d3.doubt = true ∨ d.copies.d4.doubt = true)) →
        exec .directiveRun s = .next { s with du := s.du.completed d.tag .parity ⟨0, 0, 0, 0, 0, 0⟩ }))

/-- ENROL (R155, R24, R29): refused RANGE, LABEL or FULL in this order with nothing changed; otherwise each COPPER channel
of the range becomes ENROLLED with its label and the idle pattern and joins the tail of the proof queue in ascending
order, the others are skipped, and RP1 and RP2 count them. -/
def Obligations.EnrolTakesARangeIntoMigration : Prop :=
  ∀ (d : Directive) (s : State), s.due = [] → s.du.inProgress = some d → d.stepOf = none → d.code = 1#4 →
    d.copies.d1.doubt = false → d.copies.d2.doubt = false → d.copies.d3.doubt = false → d.copies.d4.doubt = false →
    let first := d.copies.d1.value.toNat
    let count := d.copies.d2.value.toNat
    let label := d.copies.d3.value.toNat
    let refused (o : DirectiveOutcome) : State := { s with du := s.du.completed d.tag o ⟨0, 0, 0, 0, 0, 0⟩ }
    let inRange := 1 ≤ count ∧ count ≤ 32 ∧ first + count - 1 ≤ 2047 ∧ label + count - 1 ≤ 65535
    let held := ∃ k, k < count ∧ ∃ p ∈ s.cm, p.2.phase ≠ .copper ∧ p.2.label = some (BitVec.ofNat 16 (label + k))
    let outside := (s.cm.filter fun p => decide (p.2.phase ≠ .copper)).length
    let idle : Pattern := if d.copies.d4.value.getLsbD 15 = true then d.copies.d4.value.extractLsb' 0 12
      else s.sc.params.idle
    let taken := ((List.range count).map fun k => (Fin.ofNat 2048 (first + k) : Channel)).filter
      fun c => decide ((s.channel c).phase = .copper)
    (¬ inRange → exec .directiveRun s = .next (refused .range)) ∧
    (inRange → held → exec .directiveRun s = .next (refused .label)) ∧
    (inRange → ¬ held → 1024 < outside + count → exec .directiveRun s = .next (refused .full)) ∧
    (inRange → ¬ held → outside + count ≤ 1024 → ∃ t, exec .directiveRun s = .next t ∧
      { t with cm := s.cm, cp := { t.cp with queue := s.cp.queue }, du := s.du } = s ∧
      t.du = s.du.completed d.tag .done
        ⟨BitVec.ofNat 16 taken.length, BitVec.ofNat 16 (count - taken.length), 0, 0, 0, 0⟩ ∧
      t.cp.queue = s.cp.queue ++ taken ∧
      (∀ k c, k < count → c.val = first + k → (s.channel c).phase = .copper →
        t.channel c = { s.channel c with
          phase := .enrolled
          label := some (BitVec.ofNat 16 (label + k))
          idle := some idle
          pending := ⟨.pass, .pass, .none⟩ }) ∧
      (∀ c, c ∉ taken → t.channel c = s.channel c))

/-- CUT and RETIRE, and the RANGE of the four single-channel directives (R156, R157, R34, R37, R143): the checks in their
order, the accepted claim with the queued CUT or RETIRE request, and RP1 the phase word after the run. -/
def Obligations.CutAndRetireAreCheckedThenClaimed : Prop :=
  ∀ (d : Directive) (s : State), s.due = [] → s.du.inProgress = some d →
    (∀ code, (code = 2#4 ∨ code = 3#4 ∨ code = 4#4 ∨ code = 5#4) → d.stepOf = none → d.code = code →
      d.copies.d1.doubt = false → 2047 < d.copies.d1.value.toNat →
      exec .directiveRun s = .next { s with du := s.du.completed d.tag .range ⟨0, 0, 0, 0, 0, 0⟩ }) ∧
    ∀ c, let r := s.channel c
      let refused (o : DirectiveOutcome) : State := { s with du := s.du.completed d.tag o (.first r.phaseWord) }
      (d.names 2 c → s.cl.link ≠ .up → exec .directiveRun s = .next (refused .link)) ∧
      (d.names 2 c → s.cl.link = .up → r.phase ≠ .proven → exec .directiveRun s = .next (refused .phase)) ∧
      (d.names 2 c → s.cl.link = .up → r.phase = .proven → ∃ t, exec .directiveRun s = .next t ∧
        t.channel c = r.moved .cutting .pass .pass .shadow ∧ keepsOtherChannels c s t ∧
        (∀ k x, r.context = some k → s.context k = some x → t.context k = some { x with cutAttempts := 0 }) ∧
        keepsOtherContexts r.context s t ∧ t.cp.queue = s.cp.queue ∧
        t.sn = { s.sn with queue := s.sn.queue ++ [⟨.cut, c⟩] } ∧
        t.du = s.du.completed d.tag .done (.first (t.channel c).phaseWord) ∧
        { t with cm := s.cm, cp := s.cp, sn := s.sn, du := s.du } = s) ∧
      (d.names 3 c → s.cl.link ≠ .up → exec .directiveRun s = .next (refused .link)) ∧
      (d.names 3 c → s.cl.link = .up → 16 ≤ s.sc.queue.length → exec .directiveRun s = .next (refused .full)) ∧
      (d.names 3 c → s.cl.link = .up → s.sc.queue.length < 16 → ¬ (r.phase = .carried ∧ r.collapsed = true) →
        exec .directiveRun s = .next (refused .phase)) ∧
      (∀ n l p, d.names 3 c → s.cl.link = .up → s.sc.queue.length < 16 → r.phase = .carried → r.collapsed = true →
        r.slot = some n → r.label = some l → r.idle = some p → ∃ t, exec .directiveRun s = .next t ∧
        t.channel c = r.moved .retiring .fibre .pass .live ∧ keepsOtherChannels c s t ∧
        t.sc = { s.sc with queue := s.sc.queue ++ [⟨.retire, c, n, l, p⟩] } ∧
        t.du = s.du.completed d.tag .done (.first (t.channel c).phaseWord) ∧
        t.due = (if s.sc.flight = none then [.storeWriteStart] else []) ∧
        { t with cm := s.cm, sc := s.sc, du := s.du, due := s.due } = s)

/-- RECALL and WITHDRAW (R157, R38, R41, R90, R143): the checks in their order, what the accepted claim changes by the
phase it meets, and RP1 the phase word after the run. Neither needs the link. -/
def Obligations.RecallAndWithdrawAreCheckedThenClaimed : Prop :=
  ∀ (d : Directive) (c : Channel) (s : State), s.due = [] → s.du.inProgress = some d →
    let r := s.channel c
    let refused (o : DirectiveOutcome) : State := { s with du := s.du.completed d.tag o (.first r.phaseWord) }
    let leaves := (s.sn.queue.filter fun x => decide (x.kind = .leave)).length
    let leaver := r.phase ∈ [.shadow, .proven, .cutting, .carried, .fallen]
    (d.names 4 c → 16 ≤ s.sc.queue.length → exec .directiveRun s = .next (refused .full)) ∧
    (d.names 4 c → s.sc.queue.length < 16 → r.phase ≠ .retired → r.phase ≠ .stranded →
      exec .directiveRun s = .next (refused .phase)) ∧
    (∀ n l p o, d.names 4 c → s.sc.queue.length < 16 →
      (r.phase = .retired ∧ o = .retired ∨ r.phase = .stranded ∧ o = .stranded) →
      r.slot = some n → r.label = some l → r.idle = some p → ∃ t, exec .directiveRun s = .next t ∧
        t.channel c = { r.moved .recalling .fibre .idle .live with origin := some o } ∧ keepsOtherChannels c s t ∧
        t.sc = { s.sc with queue := s.sc.queue ++ [⟨.void, c, n, l, p⟩] } ∧
        t.du = s.du.completed d.tag .done (.first (t.channel c).phaseWord) ∧
        t.due = (if s.sc.flight = none then [.storeWriteStart] else []) ∧
        { t with cm := s.cm, sc := s.sc, du := s.du, due := s.due } = s) ∧
    (d.names 5 c → leaver → 32 ≤ leaves → exec .directiveRun s = .next (refused .full)) ∧
    (d.names 5 c → r.phase ∈ [.copper, .leaving, .retiring, .retired, .recalling, .stranded] →
      exec .directiveRun s = .next (refused .phase)) ∧
    (d.names 5 c → r.phase = .enrolled ∨ r.phase = .joining ∨
        leaver ∧ leaves < 32 ∧ (r.phase = .fallen → r.context = none) →
      ∃ t, exec .directiveRun s = .next t ∧ keepsOtherChannels c s t ∧
        t.du = s.du.completed d.tag .done (.first (t.channel c).phaseWord) ∧
        { t with cm := s.cm, cp := s.cp, sn := s.sn, du := s.du } = s ∧
        { t.sn with
          slots := s.sn.slots
          queue := s.sn.queue
          outstanding := s.sn.outstanding
          schedules := s.sn.schedules } = s.sn ∧
        (r.phase = .enrolled →
          t.channel c = { r.moved .copper .pass .pass .none with label := none } ∧ t.sn = s.sn ∧
          (∀ k, t.context k = s.context k) ∧ t.cp.queue = s.cp.queue.filter fun x => decide (x ≠ c)) ∧
        (r.phase = .joining →
          t.channel c = { r.moved .copper .pass .pass .none with
            label := none, slot := none, context := none, lag := 0 } ∧
          contextFreed r.context s t ∧ t.cp.queue = s.cp.queue ∧ slotFreed r.slot s t ∧
          t.sn.queue = s.queueWithout .join c ∧ t.sn.outstanding = s.outstandingWithout .join c ∧
          t.sn.schedules = s.sn.schedules) ∧
        (leaver →
          t.channel c = { r.moved .leaving .pass .pass .none with context := none, lag := 0, collapsed := false } ∧
          contextFreed r.context s t ∧
          t.cp.queue = (if r.phase = .fallen then s.cp.queue.filter fun x => decide (x ≠ c) else s.cp.queue) ∧
          (∀ n, t.slot n = s.slot n) ∧ t.sn.queue = s.queueWithout .cut c ++ [⟨.leave, c⟩] ∧
          t.sn.outstanding = s.outstandingWithout .cut c ∧
          scheduleCancelled c s t))

/-- INSPECT, SLOTVIEW and the steps of a walk (R158, R159, R160): RANGE, or the results of the number with DONE, and step
mode on that number when STEP is set; a step completes with the tag of its walk. No state outside DU changes. -/
def Obligations.ViewsFillTheResultsOfTheirNumber : Prop :=
  ∀ (d : Directive) (s : State), s.due = [] → s.du.inProgress = some d →
    let shown (r : Results) (m : Option StepMode) : State :=
      { s with du := { s.du.completed d.tag .done r with stepMode := m } }
    let number := d.copies.d1.value.toNat
    (d.stepOf = none → d.copies.d1.doubt = false →
      (d.code = 6#4 ∧ 2047 < number ∨ d.code = 7#4 ∧ 1023 < number →
        exec .directiveRun s = .next { s with du := s.du.completed d.tag .range ⟨0, 0, 0, 0, 0, 0⟩ }) ∧
      (∀ c : Channel, d.code = 6#4 → number = c.val → exec .directiveRun s = .next (shown (s.inspectResults c)
        (if d.step = true then some ⟨.inspect, number, d.tag⟩ else s.du.stepMode))) ∧
      (∀ n : SlotNo, d.code = 7#4 → number = n.val → exec .directiveRun s = .next (shown (s.slotviewResults n)
        (if d.step = true then some ⟨.slotview, number, d.tag⟩ else s.du.stepMode)))) ∧
    (∀ c : Channel, d.stepOf = some (.inspect, c.val) →
      exec .directiveRun s = .next (shown (s.inspectResults c) (some ⟨.inspect, c.val, d.tag⟩))) ∧
    (∀ n : SlotNo, d.stepOf = some (.slotview, n.val) →
      exec .directiveRun s = .next (shown (s.slotviewResults n) (some ⟨.slotview, n.val, d.tag⟩)))

/-- SET (R161): an id outside 1 to 9 or a value outside its range is refused RANGE; otherwise the value is placed in the
runtime parameter set, and RP1 to RP3 hold the id, the value before and the value now. The retirement store is not
written. -/
def Obligations.SetPlacesAParameterInItsRange : Prop :=
  ∀ (d : Directive) (s : State), s.due = [] → s.du.inProgress = some d → d.stepOf = none → d.code = 8#4 →
    d.copies.d1.doubt = false → d.copies.d2.doubt = false →
    let id := d.copies.d1.value.toNat
    let v := d.copies.d2.value.toNat
    let p := s.sc.params
    let accepted (old : Nat) (q : Params) : State := { s with
      sc := { s.sc with params := q }
      du := s.du.completed d.tag .done ⟨d.copies.d1.value, BitVec.ofNat 16 old, d.copies.d2.value, 0, 0, 0⟩ }
    let inRange (id v : Nat) : Prop := match id with
      | 1 => 8 ≤ v ∧ v ≤ 255
      | 2 => v ≤ 31
      | 3 => v ≤ 63
      | 4 => 8 ≤ v ∧ v ≤ 200
      | 5 => 100 ≤ v ∧ v ≤ 65535
      | 6 => 100 ≤ v ∧ v ≤ 65535
      | 7 => 100 ≤ v ∧ v ≤ 65535
      | 8 => 1 ≤ v ∧ v ≤ 63
      | 9 => v ≤ 4095
      | _ => False
    (¬ inRange id v →
      exec .directiveRun s = .next { s with du := s.du.completed d.tag .range ⟨0, 0, 0, 0, 0, 0⟩ }) ∧
    (inRange id v → exec .directiveRun s = .next (match id with
      | 1 => accepted p.proveRun { p with proveRun := v }
      | 2 => accepted p.quietLimit { p with quietLimit := v }
      | 3 => accepted p.guardFrames { p with guardFrames := v }
      | 4 => accepted p.noticeLead { p with noticeLead := v }
      | 5 => accepted p.noticeWait { p with noticeWait := v }
      | 6 => accepted p.joinWait { p with joinWait := v }
      | 7 => accepted p.orphanFrames { p with orphanFrames := v }
      | 8 => accepted p.holdLimit { p with holdLimit := v }
      | _ => accepted p.idle.toNat { p with idle := BitVec.ofNat 12 v }))

/-- ABANDON (R162, R43, R64, R108): every channel outside the retired group goes to COPPER without label, slot and
context; every context is freed and the proof queue emptied; the notice queue, the outstanding notice and the schedules
are emptied; every BARRED slot and every slot of a channel concerned is freed; the retired group, the peer's notice, the
next number, the store queue and the event queue stay. RP1 and RP2 count the channels moved and the slots freed. -/
def Obligations.AbandonClearsAllButTheRetiredGroup : Prop :=
  ∀ (d : Directive) (s : State), s.due = [] → s.du.inProgress = some d → d.stepOf = none → d.code = 9#4 →
    let kept (p : Phase) : Bool := decide (p ∈ [.retiring, .retired, .recalling, .stranded])
    let goes (e : SlotEntry) : Bool := match e.state with
      | .barred => true
      | .free => false
      | _ => match e.channel with
        | none => false
        | some c => !kept (s.channel c).phase
    ∃ t, exec .directiveRun s = .next t ∧
      (∀ c, kept (s.channel c).phase = true → t.channel c = s.channel c) ∧
      (∀ c, kept (s.channel c).phase = false → t.channel c = { s.channel c with
        phase := .copper, label := none, slot := none, context := none, lag := 0, collapsed := false,
        pending := ⟨.pass, .pass, .none⟩ }) ∧
      (∀ k, t.context k = none) ∧ t.cp.queue = [] ∧ t.sn.queue = [] ∧ t.sn.outstanding = none ∧
      t.sn.schedules = [] ∧ t.sn.peer = s.sn.peer ∧ t.sn.nextNumber = s.sn.nextNumber ∧
      (∀ n, t.slot n = if goes (s.slot n) = true then (s.slot n).freed else s.slot n) ∧
      t.du = s.du.completed d.tag .done
        ⟨BitVec.ofNat 16 (s.cm.filter fun p => decide (p.2.phase ≠ .copper) && !kept p.2.phase).length,
          BitVec.ofNat 16 (s.sn.slots.filter fun p => goes p.2).length, 0, 0, 0, 0⟩ ∧
      { t with cm := s.cm, cp := s.cp, sn := s.sn, du := s.du } = s

/-! ## The part's own steps -/

/-- CONTEXT_ASSIGN (R50, R30, R47): while a context is free and the proof queue is not empty the lowest-numbered free
context goes, with the starting values, to the head: an ENROLLED channel becomes JOINING, with a JOIN appended at LEAD, a
FALLEN one SHADOW with lag 0; then the step goes on with what this leaves. -/
def Obligations.ContextAssignServesTheProofQueue : Prop :=
  ∀ s : State, .contextAssign ∈ s.due →
    (∃ t, exec .contextAssign s = .next t) ∧
    (s.cp.queue = [] ∨ (∀ k, s.context k ≠ none) →
      exec .contextAssign s = .next { s with due := s.due.erase .contextAssign }) ∧
    (∀ c rest k, s.cp.queue = c :: rest → s.context k = none → (∀ j, j < k → s.context j ≠ none) →
      let r := s.channel c
      ∃ u, exec .contextAssign s = exec .contextAssign u ∧ u.due = s.due ∧ u.cp.queue = rest ∧
        u.claimFrame = s.claimFrame ∧ u.du = s.du ∧ keepsOtherChannels c s u ∧ keepsOtherContexts (some k) s u ∧
        (r.phase = .enrolled ∨ r.phase = .fallen → u.context k = some {
          owner := c, delay := List.replicate 16 none, runs := List.replicate 16 0, activeSeen := 0,
          lastCopper := none, streak := 0, joinClock := 0, joinAttempts := 0, cutAttempts := 0, retryGap := 0,
          guardRemaining := 0, lastSubstituted := none, window := List.replicate 32 false }) ∧
        (r.phase = .enrolled → u.channel c = { r.moved .joining .pass .pass .none with context := some k } ∧
          u.sn = { s.sn with
            queue := if s.cl.role = some .lead then s.sn.queue ++ [⟨.join, c⟩] else s.sn.queue }) ∧
        (r.phase = .fallen →
          u.channel c = { r.moved .shadow .pass .pass .shadow with context := some k, lag := 0 } ∧ u.sn = s.sn) ∧
        (r.phase ≠ .enrolled → r.phase ≠ .fallen → u.channel c = r ∧ u.context k = none ∧ u.sn = s.sn))

/-- NOTICE_OUTSTANDING (R91, R31, R86): with none outstanding the head becomes outstanding with the next number: a JOIN
takes the lowest FREE slot, which becomes RESERVED; a CUT counts down from NoticeLead; a LEAVE sets its slot RELEASING. A
JOIN that finds no FREE slot fails with JOIN_FAILED, spends no number, and the next head is taken. -/
def Obligations.NoticeOutstandingTakesTheHeadRequest : Prop :=
  ∀ s : State, .noticeOutstanding ∈ s.due →
    let rest := s.sn.queue.drop 1
    let placed (k : NoticeKind) (c : Channel) (n : SlotNo) (label : Word) (countdown : Nat) (t : State) : Prop :=
      exec .noticeOutstanding s = .next t ∧ t.due = s.due.erase .noticeOutstanding ∧ t.cp = s.cp ∧ t.du = s.du ∧
      t.claimFrame = { s with sn := { s.sn with nextNumber := s.sn.nextNumber + 1 } }.claimFrame ∧
      t.sn.queue = rest ∧ t.sn.schedules = s.sn.schedules ∧
      t.sn.outstanding = some {
        kind := k, number := s.sn.nextNumber, channel := c, slot := n, label := label, countdown := countdown,
        age := 0, firstSent := none, expired := false }
    (s.sn.outstanding ≠ none ∨ s.sn.queue = [] →
      exec .noticeOutstanding s = .next { s with due := s.due.erase .noticeOutstanding }) ∧
    (∀ c n l, s.sn.outstanding = none → s.sn.queue.head? = some ⟨.join, c⟩ → (s.channel c).phase = .joining →
      (s.channel c).label = some l → (s.slot n).state = .free → (∀ m, m < n → (s.slot m).state ≠ .free) →
      ∃ t, placed .join c n l 0 t ∧ t.channel c = { s.channel c with slot := some n } ∧ keepsOtherChannels c s t ∧
        t.slot n = (s.slot n).given .reserved c ∧ keepsOtherSlots (some n) s t) ∧
    (∀ c n, s.sn.outstanding = none → s.sn.queue.head? = some ⟨.cut, c⟩ → (s.channel c).slot = some n →
      ∃ t, placed .cut c n 0 s.sc.params.noticeLead t ∧ t.cm = s.cm ∧ t.sn.slots = s.sn.slots) ∧
    (∀ c n, s.sn.outstanding = none → s.sn.queue.head? = some ⟨.leave, c⟩ → (s.channel c).slot = some n →
      ∃ t, placed .leave c n 0 0 t ∧ t.cm = s.cm ∧ keepsOtherSlots (some n) s t ∧
        t.slot n = { s.slot n with
          state := .releasing
          orphanCount := 0
          peerAhead := false
          peerShadow := false
          followDue := false }) ∧
    (∀ c, s.sn.outstanding = none → s.sn.queue.head? = some ⟨.join, c⟩ → (s.channel c).phase = .joining →
      (∀ n, (s.slot n).state ≠ .free) →
      ∃ u, exec .noticeOutstanding s = exec .noticeOutstanding u ∧ u.due = s.due ∧
        u.claimFrame = s.claimFrame ∧ u.sn.outstanding = none ∧ u.sn.schedules = s.sn.schedules ∧
        u.sn.queue = rest.filter (fun x => decide (x ≠ ⟨.join, c⟩)) ∧
        u.channel c = { (s.channel c).moved .enrolled .pass .pass .none with
          slot := none, context := none, lag := 0 } ∧ keepsOtherChannels c s u ∧
        contextFreed (s.channel c).context s u ∧ slotFreed (s.channel c).slot s u ∧
        u.cp.queue = s.cp.queue ++ [c] ∧ u.du = s.du.raised .joinFailed c)

/-- JOIN_TIMEOUT and JOIN_FAILED (R31, R52, R93, R95): from JOINING the context is handed back, the JOIN removed, its
RESERVED slot freed, and the channel returns to ENROLLED at the tail of the proof queue with the step's event. A stale
claim changes nothing, nor does a timeout whose context no longer stands at JoinWait (the model's own test, log 1). -/
def Obligations.JoinEndsBackInTheProofQueue : Prop :=
  ∀ (i : Instr) (d : Due) (c : Channel) (event : EventKind) (s : State), ownStep i = some d → d ∈ s.due →
    let r := s.channel c
    let timedOut (k : CtxNo) : Prop := r.context = some k ∧ ∃ x, s.context k = some x ∧ s.sc.params.joinWait ≤ x.joinClock
    let valid := (d = .joinFailed c ∧ event = .joinFailed) ∨ ∃ k, d = .joinTimeout c k ∧ event = .joinTimeout ∧ timedOut k
    (valid → r.phase = .joining → ∃ t, exec i s = .next t ∧
      t.channel c = { r.moved .enrolled .pass .pass .none with slot := none, context := none, lag := 0 } ∧
      keepsOtherChannels c s t ∧ contextFreed r.context s t ∧ slotFreed r.slot s t ∧
      t.cp.queue = s.cp.queue ++ [c] ∧ t.sn.queue = s.queueWithout .join c ∧
      t.sn.outstanding = s.outstandingWithout .join c ∧ t.sn.schedules = s.sn.schedules ∧
      t.du = s.du.raised event c ∧ t.claimFrame = s.claimFrame ∧ t.due = s.due.erase d) ∧
    (d = .joinFailed c ∧ r.phase ≠ .joining ∨
      (∃ k, d = .joinTimeout c k ∧ ¬ (r.phase = .joining ∧ timedOut k)) →
      exec i s = .next { s with due := s.due.erase d })

/-- RETRY_GAP_END and BAR_CLOCK_EXPIRY (R98, R90, R87, R86): at LEAD the end of the gap appends a JOIN for the owner, which
during the gap has no request queued or outstanding; the end of the bar clock sets the slot FREE. -/
def Obligations.GapAppendsJoinAndBarClockFreesSlot : Prop :=
  (∀ (c : Channel) (k : CtxNo) (s : State), .retryGapEnd c k ∈ s.due →
    exec (.retryGapEnd c k) s = .next { s with
      due := s.due.erase (.retryGapEnd c k)
      sn := { s.sn with queue :=
        if (s.channel c).phase = .joining ∧ (s.channel c).context = some k ∧ s.cl.role = some .lead ∧
          ⟨.join, c⟩ ∉ s.requests then s.sn.queue ++ [⟨.join, c⟩]
        else s.sn.queue } }) ∧
  (∀ (n : SlotNo) (s : State), .barClockExpiry n ∈ s.due → (s.slot n).state = .barred → (s.slot n).barClock = 0 →
    ∃ t, exec (.barClockExpiry n) s = .next t ∧ t.slot n = (s.slot n).freed ∧ keepsOtherSlots (some n) s t ∧
      { t with sn := { t.sn with slots := s.sn.slots }, due := s.due } = s ∧
      t.due = s.due.erase (.barClockExpiry n)) ∧
  (∀ (n : SlotNo) (s : State), .barClockExpiry n ∈ s.due →
    ((s.slot n).state ≠ .barred ∨ (s.slot n).barClock ≠ 0) →
    exec (.barClockExpiry n) s = .next { s with due := s.due.erase (.barClockExpiry n) })

/-- CUT_DUE and FOLLOW_CUT (R35, R99, R104, R111, R115, R116, R119): the cut sets CARRIED with both routes FIBRE, PASS,
LIVE, starts the guard with GuardFrames, and starts the fibre word register from the last copper word with the word at
the lag; a follow cut also withdraws the own CUT and cancels the schedule. A stale claim changes no more than the mark. -/
def Obligations.CutStartsCarriage : Prop :=
  ∀ (i : Instr) (d : Due) (c : Channel) (n : SlotNo) (follow : Bool) (s : State), ownStep i = some d → d ∈ s.due →
    (follow = false ∧ d = .cutDue c n ∨ follow = true ∧ d = .followCut c n ∧ (s.slot n).followDue = true) →
    let r := s.channel c
    let ready := r.slot = some n ∧ (r.phase = .cutting ∨ follow = true ∧ r.phase = .proven)
    let unmarked := (if follow = true then { s.slot n with followDue := false } else s.slot n)
    (¬ ready → ∃ t, exec i s = .next t ∧ t.slot n = unmarked ∧ keepsOtherSlots (some n) s t ∧
      { t with sn := { t.sn with slots := s.sn.slots }, due := s.due } = s ∧ t.due = s.due.erase d) ∧
    (∀ k x last idle, ready → r.context = some k → s.context k = some x → x.lastCopper = some last →
      r.idle = some idle → 1 ≤ s.sc.params.holdLimit →
      let source := x.delay.getD r.lag.val none
      let word := source.getD last
      let guard := s.sc.params.guardFrames
      ∃ t, exec i s = .next t ∧
        t.channel c = { r.moved .carried .fibre .pass .live with
          active := ⟨.fibre, .pass, .live⟩, collapsed := false } ∧ keepsOtherChannels c s t ∧
        t.context k = some { x with
          guardRemaining := guard
          lastSubstituted := some word
          window := decide (word ≠ last) :: List.replicate 31 true } ∧ keepsOtherContexts (some k) s t ∧
        t.cp.queue = s.cp.queue ∧
        t.register c = some {
          frameWord := if 0 < guard then last.extractLsb' 8 4 ++ word.extractLsb' 0 8 else word
          carriedWord := word
          lastGood := word
          repeats := if source = none then 1 else 0
          silent := false
          guardEnding := false } ∧ (∀ e, e ≠ c → t.register e = s.register e) ∧
        t.slot n = unmarked ∧ keepsOtherSlots (some n) s t ∧
        (follow = false → t.sn = s.sn) ∧
        (follow = true → t.sn.queue = s.queueWithout .cut c ∧ t.sn.outstanding = s.outstandingWithout .cut c ∧
          scheduleCancelled c s t ∧ t.sn.nextNumber = s.sn.nextNumber ∧ t.sn.peer = s.sn.peer) ∧
        t.du = s.du.raised (if follow = true then .followed else .cutDone) c ∧ t.due = s.due.erase d ∧
        t.frame = s.frame)

/-- GUARD_END (R113, R116, R117, R119, R120, R121): once the guard has ended a quiet channel collapses: its context is
handed back, its lag becomes 0, and its word comes from the slot's visible arrival; any other goes on from the delay line
at its lag with an activity mark. The word is sent with the fibre supervision, and a spell past HoldLimit makes
SLOT_SILENT due. -/
def Obligations.GuardEndTestsQuietAndChoosesTheWord : Prop :=
  ∀ (c : Channel) (k : CtxNo) (n : SlotNo) (x : Context) (y : FibreRegister) (idle : Pattern) (s : State),
    .guardEnd c ∈ s.due → (s.channel c).phase = .carried → (s.channel c).context = some k →
    (s.channel c).slot = some n → (s.channel c).idle = some idle → s.context k = some x → x.guardRemaining = 0 →
    s.register c = some y →
    let r := s.channel c
    let quiet := r.lag = 0 ∨ (x.window.filter id).length ≤ s.sc.params.quietLimit ∨
      y.carriedWord.extractLsb' 8 4 = idle.extractLsb' 8 4
    let chosen (source : Option Pattern) : FibreRegister :=
      match source with
      | some w => ⟨w, w, w, 0, false, false⟩
      | none =>
        let repeats := min 64 (y.repeats + 1)
        let w := if repeats ≤ s.sc.params.holdLimit then y.lastGood else idle
        ⟨w, w, y.lastGood, repeats, y.silent, false⟩
    let silentDue (z : FibreRegister) : List Due :=
      if s.sc.params.holdLimit < z.repeats ∧ z.silent = false then [.slotSilent c] else []
    ∃ t z, exec (.guardEnd c) s = .next t ∧ t.register c = some z ∧ (∀ e, e ≠ c → t.register e = s.register e) ∧
      t.due = s.due.erase (.guardEnd c) ++ silentDue z ∧ keepsOtherChannels c s t ∧ keepsOtherContexts (some k) s t ∧
      t.cp.queue = s.cp.queue ∧ t.sn = s.sn ∧ t.frame = s.frame ∧
      (¬ quiet → z = chosen (x.delay.getD r.lag.val none) ∧ t.channel c = r ∧ t.du = s.du ∧
        t.context k = some { x with
          window := (decide (some z.carriedWord ≠ x.lastSubstituted) :: x.window).take 32
          lastSubstituted := some z.carriedWord }) ∧
      (quiet → z = chosen (match (s.slot n).visible with
          | none => none
          | some a => if a.damaged = true then none else some a.word) ∧
        t.channel c = { r.moved .carried .fibre .pass .live with
          active := ⟨.fibre, .pass, .live⟩, context := none, lag := 0, collapsed := true } ∧
        t.context k = none ∧ t.du = s.du.raised .collapsed c)

/-- SLOT_SILENT (R117, R118): a spell past HoldLimit substitutes the idle pattern and sets the silent mark, and the event
is raised while the link is UP; in a boundary that loses the link none is (DEDUCED, log 16). A frame word that the
boundary chose from the idle pattern stands (R116). -/
def Obligations.SlotSilentSubstitutesTheIdlePattern : Prop :=
  ∀ (c : Channel) (y : FibreRegister) (idle : Pattern) (s : State), .slotSilent c ∈ s.due → s.register c = some y →
    (s.channel c).idle = some idle →
    let rest : State := { s with due := s.due.erase (.slotSilent c) }
    (s.sc.params.holdLimit < y.repeats → y.silent = false → ∃ t z, exec (.slotSilent c) s = .next t ∧
      t.register c = some z ∧ (∀ e, e ≠ c → t.register e = s.register e) ∧
      { z with frameWord := y.frameWord, carriedWord := y.carriedWord, silent := y.silent } = y ∧
      z.silent = true ∧ z.carriedWord = idle ∧
      (y.carriedWord = idle → z.frameWord = y.frameWord) ∧
      (y.carriedWord ≠ idle → (s.channel c).context = none ∨ (s.channel c).phase ≠ .carried → z.frameWord = idle) ∧
      (∀ k x last, y.carriedWord ≠ idle → (s.channel c).phase = .carried → (s.channel c).context = some k →
        s.context k = some x → x.lastCopper = some last → z.frameWord =
          if 0 < x.guardRemaining then last.extractLsb' 8 4 ++ idle.extractLsb' 0 8 else idle) ∧
      { t with bi := { t.bi with registers := s.bi.registers }, du := s.du } = rest ∧
      t.du = (if s.cl.link = .up ∧ s.cl.lossCount < 16 then s.du.raised .slotSilent c else s.du)) ∧
    (y.repeats ≤ s.sc.params.holdLimit ∨ y.silent = true → exec (.slotSilent c) s = .next rest)

/-- LINK_DOWN (R81, R40, R62, R107): the link goes DARK with its counts at their start and LINK_DOWN raised; each channel
and its context change by its phase, carried channels joining the proof queue in ascending order; the CUTs of CUTTING
channels are withdrawn and their schedules cancelled; the peer's notice is forgotten, and the counts and marks restart. -/
def Obligations.LinkDownTakesTheCarrierLossClaim : Prop :=
  ∀ s : State, .linkDown ∈ s.due → s.channelsInOrder →
    (¬ (s.cl.link = .up ∧ 16 ≤ s.cl.lossCount) →
      exec .linkDown s = .next { s with due := s.due.erase .linkDown }) ∧
    (s.cl.link = .up → 16 ≤ s.cl.lossCount → ∃ t, exec .linkDown s = .next t ∧
      t.cl = { s.cl with link := .dark, lossCount := 0, huntCount := 0, lastNumber := none } ∧
      t.du = s.du.raised .linkDown 0 ∧ t.due = s.due.erase .linkDown ∧
      { t with cl := s.cl, cm := s.cm, cp := s.cp, sn := s.sn, du := s.du, due := s.due } = s ∧
      (∀ c, let r := s.channel c
        t.channel c = match r.phase with
          | .proven => { r.moved .shadow .pass .pass .shadow with lag := 0 }
          | .cutting => { r.moved .shadow .pass .pass .shadow with lag := 0 }
          | .carried => { r.moved .fallen .pass .pass .shadow with
              context := none, lag := 0, collapsed := false, cause := none, origin := none }
          | .retired => { r.moved .stranded .idle .idle .live with cause := some .link }
          | _ => r) ∧
      (∀ c k x, (s.channel c).context = some k → s.context k = some x →
        (∀ e, (s.channel e).context = some k → e = c) →
        t.context k = match (s.channel c).phase with
          | .shadow => some { x with runs := List.replicate 16 0, activeSeen := 0, streak := 0 }
          | .proven => some { x with runs := List.replicate 16 0, activeSeen := 0, streak := 0 }
          | .cutting => some { x with runs := List.replicate 16 0, activeSeen := 0, streak := 0 }
          | .carried => none
          | _ => some x) ∧
      t.cp.queue = s.cp.queue ++ (Assoc.keys s.cm).filter (fun c => decide ((s.channel c).phase = .carried)) ∧
      t.sn.peer = none ∧ t.sn.nextNumber = s.sn.nextNumber ∧
      (∀ n, t.slot n = { s.slot n with
        orphanCount := 0, liveRun := 0, shadowRun := 0, peerAhead := false, peerShadow := false,
        followDue := false }) ∧
      t.sn.queue = s.sn.queue.filter
        (fun x => !(decide (x.kind = .cut) && decide ((s.channel x.channel).phase = .cutting))) ∧
      t.sn.outstanding = (match s.sn.outstanding with
        | none => none
        | some o => if o.kind = .cut ∧ (s.channel o.channel).phase = .cutting then none else some o) ∧
      (∀ c, Assoc.find t.sn.schedules c =
        if (s.channel c).phase = .cutting then none else Assoc.find s.sn.schedules c))

/-- ORPHAN_TEST and PEER_SHADOW (R89, R105, R106, R42, R39): the orphaned claim, the silence claim or none by the phase of
the slot's channel; and the mark with its event. A test whose condition no longer holds changes nothing. After either, the
heard claims that stand first in the due steps are taken (`takeHeard`; log 25): each returns a STRANDED channel to RETIRED,
with UNSTRANDED for the cause SILENCE, and changes nothing in any other phase. -/
def Obligations.OrphanTestAndPeerShadowActByThePhase : Prop :=
  (∀ (n : SlotNo) (c : Channel) (s : State), (s.slot n).channel = some c →
    let e := s.slot n
    let r := s.channel c
    let group := r.phase ∈ [.shadow, .proven, .cutting, .carried, .fallen]
    let holds := s.cl.link = .up ∧ e.state = .held ∧ s.sc.params.orphanFrames ≤ e.orphanCount
    (.orphanTest n ∈ s.due → holds → group → r.slot = some n → ∃ t, exec (.orphanTest n) s = .next t.takeHeard ∧
      t.channel c = { r.moved .enrolled .pass .pass .none with
        slot := none, context := none, lag := 0, collapsed := false } ∧ keepsOtherChannels c s t ∧
      contextFreed r.context s t ∧ slotFreed (some n) s t ∧
      t.cp.queue = (if r.phase = .fallen then s.cp.queue.filter fun x => decide (x ≠ c) else s.cp.queue) ++ [c] ∧
      t.sn.queue = s.queueWithout .cut c ∧ t.sn.outstanding = s.outstandingWithout .cut c ∧
      scheduleCancelled c s t ∧ t.du = s.du.raised .orphaned c ∧ t.claimFrame = s.claimFrame ∧
      t.due = s.due.erase (.orphanTest n)) ∧
    (.orphanTest n ∈ s.due → holds → r.phase = .retired → r.slot = some n → ∃ t,
      exec (.orphanTest n) s = .next t.takeHeard ∧
      t.channel c = { r.moved .stranded .idle .idle .live with cause := some .silence } ∧ keepsOtherChannels c s t ∧
      t.du = s.du.raised .stranded c ∧ t.due = s.due.erase (.orphanTest n) ∧
      { t with cm := s.cm, du := s.du, due := s.due } = s) ∧
    (.orphanTest n ∈ s.due → ¬ holds ∨ ¬ group ∧ r.phase ≠ .retired ∨ r.slot ≠ some n →
      exec (.orphanTest n) s = .next (State.takeHeard { s with due := s.due.erase (.orphanTest n) })) ∧
    (.peerShadow n ∈ s.due → e.state = .held → r.phase = .carried → 8 ≤ e.shadowRun → e.peerShadow = false →
      ∃ t, exec (.peerShadow n) s = .next t.takeHeard ∧ t.slot n = { e with peerShadow := true } ∧
        keepsOtherSlots (some n) s t ∧ t.du = s.du.raised .peerShadow c ∧ t.due = s.due.erase (.peerShadow n) ∧
        { t with sn := { t.sn with slots := s.sn.slots }, du := s.du, due := s.due } = s) ∧
    (.peerShadow n ∈ s.due →
      e.state ≠ .held ∨ r.phase ≠ .carried ∨ e.shadowRun < 8 ∨ e.peerShadow = true →
      exec (.peerShadow n) s = .next (State.takeHeard { s with due := s.due.erase (.peerShadow n) }))) ∧
  (∀ s : State, (∀ n rest, s.due ≠ .heard n :: rest) → s.takeHeard = s) ∧
  (∀ (n : SlotNo) (rest : List Due) (s : State), s.due = .heard n :: rest →
    let passed : State := { s with due := rest }
    (∀ c, (s.slot n).channel = some c → (s.channel c).phase = .stranded → (s.channel c).slot = some n → let r := s.channel c
      ∃ t, s.takeHeard = t.takeHeard ∧ t.channel c = { r.moved .retired .fibre .idle .live with cause := none } ∧
        keepsOtherChannels c s t ∧ t.du = (if r.cause = some .silence then s.du.raised .unstranded c else s.du) ∧
        { t with cm := s.cm, du := s.du } = passed) ∧
    ((∀ c, (s.slot n).channel = some c → (s.channel c).phase ≠ .stranded ∨ (s.channel c).slot ≠ some n) →
      s.takeHeard = passed.takeHeard))

/-- PROOF_SUCCESS and PROOF_FAILURE (R32, R57, R58): from SHADOW with the context matching, PROVEN at the lag with the
streak 0; or back to ENROLLED at the tail of the proof queue with context and slot freed. In any other phase, or with
another context, the claim is stale and changes nothing. -/
def Obligations.ProofEndsInProvenOrBackInTheQueue : Prop :=
  ∀ (c : Channel) (k : CtxNo) (lag : Lag) (s : State),
    let r := s.channel c
    let valid := r.phase = .shadow ∧ r.context = some k
    (∀ d i, (d = .proofSuccess c k lag ∨ d = .proofFailure c k) → ownStep i = some d → d ∈ s.due → ¬ valid →
      exec i s = .next { s with due := s.due.erase d }) ∧
    (.proofSuccess c k lag ∈ s.due → valid → ∃ t, exec (.proofSuccess c k lag) s = .next t ∧
      t.channel c = { r.moved .proven .pass .pass .shadow with lag := lag } ∧ keepsOtherChannels c s t ∧
      (∀ x, s.context k = some x → t.context k = some { x with streak := 0 }) ∧
      keepsOtherContexts (some k) s t ∧ t.cp.queue = s.cp.queue ∧ t.sn = s.sn ∧ t.du = s.du.raised .proven c ∧
      t.claimFrame = s.claimFrame ∧ t.due = s.due.erase (.proofSuccess c k lag)) ∧
    (.proofFailure c k ∈ s.due → valid → ∃ t, exec (.proofFailure c k) s = .next t ∧
      t.channel c = { r.moved .enrolled .pass .pass .none with slot := none, context := none, lag := 0 } ∧
      keepsOtherChannels c s t ∧ contextFreed (some k) s t ∧ slotFreed r.slot s t ∧
      t.cp.queue = s.cp.queue ++ [c] ∧ t.sn.queue = s.sn.queue ∧ t.sn.outstanding = s.sn.outstanding ∧
      t.sn.schedules = s.sn.schedules ∧ t.du = s.du.raised .proveFailed c ∧ t.claimFrame = s.claimFrame ∧
      t.due = s.due.erase (.proofFailure c k))

/-- DEMOTION and CUT_FAILED (R33, R35, R61, R96): a PROVEN or CUTTING channel whose context matches goes to SHADOW with
lag 0 and its proof state at the start, its own CUT withdrawn and its schedule cancelled if it was CUTTING; a failed cut
returns CUTTING to PROVEN with context and lag kept. A stale claim changes nothing. -/
def Obligations.DemotionRestartsProofAndCutFailedReturns : Prop :=
  ∀ (c : Channel) (k : CtxNo) (n : SlotNo) (s : State),
    let r := s.channel c
    (.demotion c k ∈ s.due → ¬ ((r.phase = .proven ∨ r.phase = .cutting) ∧ r.context = some k) →
      exec (.demotion c k) s = .next { s with due := s.due.erase (.demotion c k) }) ∧
    (.demotion c k ∈ s.due → (r.phase = .proven ∨ r.phase = .cutting) → r.context = some k → ∃ t,
      exec (.demotion c k) s = .next t ∧ t.channel c = { r.moved .shadow .pass .pass .shadow with lag := 0 } ∧
      keepsOtherChannels c s t ∧
      (∀ x, s.context k = some x → t.context k =
        some { x with runs := List.replicate 16 0, activeSeen := 0, streak := 0 }) ∧
      keepsOtherContexts (some k) s t ∧ t.cp.queue = s.cp.queue ∧ t.sn.slots = s.sn.slots ∧
      (r.phase = .proven → t.sn = s.sn) ∧
      (r.phase = .cutting → t.sn.queue = s.queueWithout .cut c ∧ t.sn.outstanding = s.outstandingWithout .cut c ∧
        scheduleCancelled c s t) ∧
      t.du = s.du.raised .demoted c ∧ t.claimFrame = s.claimFrame ∧ t.due = s.due.erase (.demotion c k)) ∧
    (.cutFailed c n ∈ s.due → ¬ (r.phase = .cutting ∧ r.slot = some n) →
      exec (.cutFailed c n) s = .next { s with due := s.due.erase (.cutFailed c n) }) ∧
    (.cutFailed c n ∈ s.due → r.phase = .cutting → r.slot = some n → ∃ t, exec (.cutFailed c n) s = .next t ∧
      t.channel c = r.moved .proven .pass .pass .shadow ∧ keepsOtherChannels c s t ∧ t.cp = s.cp ∧ t.sn = s.sn ∧
      t.du = s.du.raised .cutFailed c ∧ t.claimFrame = s.claimFrame ∧ t.due = s.due.erase (.cutFailed c n))

/-- FRAME_SENT and NOTICE_EXPIRY (R92, R95, R96, R97): a sent frame that carried the outstanding notice raises its age,
and lowers a CUT's countdown; the CUT expires at 0, the others at NoticeWait. An expired JOIN or CUT counts an attempt of
the channel's context and is queued again, or fails at the eighth or third; an expired LEAVE resolves. -/
def Obligations.SentNoticesAgeAndExpire : Prop :=
  ∀ s : State,
    (s.due = [] → s.cl.sending = none → exec .frameSent s = .next s) ∧
    (∀ f, s.due = [] → s.cl.sending = some f →
      let sent : State := { s with cl := { s.cl with sending := none } }
      (s.sn.outstanding = none → exec .frameSent s = .next sent) ∧
      (∀ o, s.sn.outstanding = some o → (f.notice.kind ≠ some o.kind ∨ f.notice.number ≠ o.number) →
        exec .frameSent s = .next sent) ∧
      (∀ o, s.sn.outstanding = some o → f.notice.kind = some o.kind → f.notice.number = o.number →
        f.notice.slot = o.slot →
        let countdown := if o.kind = .cut then o.countdown - 1 else o.countdown
        let ended : Bool := if o.kind = .cut then decide (countdown = 0)
          else decide (s.sc.params.noticeWait ≤ o.age + 1)
        exec .frameSent s = .next { sent with
          sn := { s.sn with outstanding := some { o with age := o.age + 1, countdown := countdown, expired := ended } }
          due := if ended = true then [.noticeExpiry o.number] else [] })) ∧
    (∀ number, .noticeExpiry number ∈ s.due →
      let rest : State := { s with due := s.due.erase (.noticeExpiry number) }
      ((∀ o, s.sn.outstanding = some o → ¬ (o.number = number ∧ o.expired = true)) →
        exec (.noticeExpiry number) s = .next rest) ∧
      (∀ o k x, s.sn.outstanding = some o → o.number = number → o.expired = true → o.kind ≠ .leave →
        (s.channel o.channel).context = some k → s.context k = some x →
        (o.kind = .join → (s.channel o.channel).phase = .joining ∧ (s.channel o.channel).slot = some o.slot) →
        let attempts := (if o.kind = .join then x.joinAttempts else x.cutAttempts) + 1
        let spent := (if o.kind = .join then 8 else 3) ≤ attempts
        ∃ t, exec (.noticeExpiry number) s = .next t ∧ t.sn.outstanding = none ∧
          t.sn.queue = (if spent then s.sn.queue else s.sn.queue ++ [⟨o.kind, o.channel⟩]) ∧
          t.due = rest.due ++ (if spent then
            [if o.kind = .join then .joinFailed o.channel else .cutFailed o.channel o.slot] else []) ∧
          t.context k = some (if o.kind = .join then { x with joinAttempts := attempts }
            else { x with cutAttempts := attempts }) ∧
          keepsOtherContexts (some k) s t ∧ t.cp.queue = s.cp.queue ∧ keepsOtherChannels o.channel s t ∧
          t.channel o.channel = (if o.kind = .join then { s.channel o.channel with slot := none }
            else s.channel o.channel) ∧
          t.slot o.slot = (if o.kind = .join then (s.slot o.slot).freed else s.slot o.slot) ∧
          keepsOtherSlots (some o.slot) s t ∧ t.sn.schedules = s.sn.schedules ∧ t.du = s.du ∧
          t.claimFrame = s.claimFrame) ∧
      (∀ o, s.sn.outstanding = some o → o.number = number → o.expired = true → o.kind = .leave →
        (s.channel o.channel).phase = .leaving → (s.channel o.channel).slot = some o.slot →
        ∃ t, exec (.noticeExpiry number) s = .next t ∧ t.sn.outstanding = none ∧
          t.sn.queue = s.queueWithout .leave o.channel ∧
          t.channel o.channel = { (s.channel o.channel).moved .copper .pass .pass .none with
            slot := none, label := none } ∧ keepsOtherChannels o.channel s t ∧
          slotFreed (some o.slot) s t ∧ t.cp = s.cp ∧ t.sn.schedules = s.sn.schedules ∧
          t.du = s.du.raised .left o.channel ∧ t.claimFrame = s.claimFrame ∧ t.due = rest.due))

/-! ## The carrier link -/

/-- FRAME_ARRIVAL (R72, R73, R80): outside RUNNING a unit is not judged; in RUNNING it is valid when the tests of R72
hold, and an invalid one empties every latch, sets the mark to NONE and ends HUNTING, and does nothing else. -/
def Obligations.ArrivalsAreJudgedAndInvalidOnesDiscarded : Prop :=
  (∀ (bytes : List Byte) (s : State), s.due = [] → (s.part ≠ .running ∨ s.resetHeld = true) →
    exec (.frameArrival bytes) s = .next s) ∧
  (∀ bytes : List Byte,
    let b (i : Nat) : Byte := bytes.getD i 0
    let count := (b 4).toNat % 8 * 256 + (b 5).toNat
    (readFrame bytes).isSome = true ↔
      (16 ≤ bytes.length ∧ b 0 = 0x3A#8 ∧ b 1 = 0xC5#8 ∧ crc (bytes.take 14) = b 14 ++ b 15 ∧ count ≤ 1024 ∧
        bytes.length = 16 + 5 * count ∧
        ∀ k, k < count → (b (16 + 5 * k + 1)).getLsbD 3 = decide (k + 1 = count))) ∧
  (∀ (bytes : List Byte) (s : State), s.steady → readFrame bytes = none →
    ∃ t, exec (.frameArrival bytes) s = .next t ∧ (∀ n, t.slot n = { s.slot n with latch := none }) ∧
      t.cl = (if s.cl.link = .hunting then
        { s.cl with markGood := false, link := .dark, lossCount := 0, huntCount := 0, lastNumber := none }
        else { s.cl with markGood := false }) ∧
      { t with cl := s.cl, sn := { t.sn with slots := s.sn.slots } } = s)

/-- FRAME_ARRIVAL of a valid frame, LINK_UP and HUNT_LOSS (R74, R77 to R80): the clash, the start and the run of HUNTING,
the entry to UP with the third frame of a run in hand (DEDUCED, log 15), the use of a frame in UP, and the return to
DARK. -/
def Obligations.LinkMonitorFollowsTheFrames : Prop :=
  (∀ (bytes : List Byte) (f : ReceivedFrame) (r : Role) (s : State), s.steady → readFrame bytes = some f →
    s.cl.role = some r →
    let heard : CarrierLink := { s.cl with peerRole := some f.role, clash := false, lastNumber := some f.number }
    let hunt := if s.cl.lastNumber = some (f.number - 1) then s.cl.huntCount + 1 else 1
    (f.role = r → exec (.frameArrival bytes) s = .next { s with
      cl := if s.cl.link = .hunting then
          { s.cl with peerRole := some f.role, clash := true, huntCount := 0, lastNumber := none }
        else { s.cl with peerRole := some f.role, clash := true }
      du := if s.cl.clash = true then s.du else s.du.raised .roleClash 0 }) ∧
    (f.role ≠ r → s.cl.link = .dark → exec (.frameArrival bytes) s =
      .next { s with cl := { heard with link := .hunting, huntCount := 1, lossCount := 0 } }) ∧
    (f.role ≠ r → s.cl.link = .hunting → hunt < 3 → exec (.frameArrival bytes) s =
      .next { s with cl := { heard with huntCount := hunt } }) ∧
    (f.role ≠ r → s.cl.link = .hunting → 3 ≤ hunt → exec (.frameArrival bytes) s =
      .next { s with cl := { heard with huntCount := hunt, inHand := some f }, due := [.linkUp] }) ∧
    (f.role ≠ r → s.cl.link = .up → exec (.frameArrival bytes) s =
      .next (State.useFrame { s with cl := heard } f))) ∧
  (∀ (f : ReceivedFrame) (s : State), .linkUp ∈ s.due → s.cl.link = .hunting → s.cl.inHand = some f →
    exec .linkUp s = .next (State.useFrame { s with
      cl := { s.cl with link := .up, lossCount := 0, huntCount := 0, inHand := none }
      du := s.du.raised .linkUp 0
      due := s.due.erase .linkUp } f)) ∧
  (∀ s : State, .huntLoss ∈ s.due →
    (s.cl.link = .hunting → 16 ≤ s.cl.lossCount → exec .huntLoss s = .next { s with
      cl := { s.cl with link := .dark, lossCount := 0, huntCount := 0, lastNumber := none }
      due := s.due.erase .huntLoss }) ∧
    (s.cl.link ≠ .hunting ∨ s.cl.lossCount < 16 →
      exec .huntLoss s = .next { s with due := s.due.erase .huntLoss }))

/-- The use of a frame in UP (R74, R75, R89, R104, R105, R106, R39), after its reply and its notice: each record of a slot
in use goes to the latch, the last one standing; the mark becomes GOOD; the counts, runs and marks of each slot in use
step by the last record's kind; and the tests follow in turn: peer-ahead with its event, peer-shadow, orphan, and at last
the heard claim for a STRANDED channel. The tests of the slots come in ascending order; the heard claims are made at once
where nothing is due, and else wait behind what is due (log 25); no heard claim of an earlier frame waits (log 1). The
events are one PEER_AHEAD for each mark newly set, and then one UNSTRANDED for each channel heard at once whose cause was
SILENCE, and no other. -/
def Obligations.UsedFrameStoresRecordsAndStepsTheSlots : Prop :=
  ∀ (f : ReceivedFrame) (s : State), s.slotsInOrder → (∀ m, .heard m ∉ s.due) →
    let u := (s.takeReply f.reply).takeNotice f.notice
    let t := s.useFrame f
    let heard (r : ReceivedRecord) : Arrival :=
      if r.checkGood = true then
        ⟨r.fields.word, r.fields.damaged, if r.fields.live = true then .live else .shadow⟩
      else ⟨r.fields.word, true, .unknown⟩
    let last (n : SlotNo) : Option Arrival :=
      ((f.records.filter fun r => decide (r.fields.slot = n)).getLast?).map heard
    let kind (n : SlotNo) : Option ArrivalKind := (last n).map Arrival.kind
    let inUse (n : SlotNo) : Prop := (u.slot n).state ≠ .free ∧ (u.slot n).state ≠ .barred
    let held (n : SlotNo) : Prop := (u.slot n).state = .held
    let phaseIs (n : SlotNo) (p : Phase) : Prop := ∃ c, (u.slot n).channel = some c ∧ (u.channel c).phase = p
    let uncut (n : SlotNo) : Prop := phaseIs n .shadow ∨ phaseIs n .fallen
    let shadow (n : SlotNo) : Nat := if kind n = some .shadow then min 255 ((u.slot n).shadowRun + 1)
      else if kind n = some .unknown then (u.slot n).shadowRun else 0
    let orphan (n : SlotNo) : Nat := if ¬ held n then (u.slot n).orphanCount
      else if kind n = none then min 65535 ((u.slot n).orphanCount + 1) else 0
    t.cl = { u.cl with markGood := true } ∧
    { t with
      cl := u.cl
      cm := u.cm
      sn := { t.sn with slots := u.sn.slots }
      du := { t.du with events := u.du.events, lost := u.du.lost }
      due := u.due } = u ∧
    (∀ n, ¬ inUse n → t.slot n = u.slot n) ∧
    (∀ n c, inUse n → (u.slot n).channel = some c →
      let e := u.slot n
      let live := if kind n = some .live then (if uncut n then 0 else min 255 (e.liveRun + 1))
        else if kind n = some .unknown then e.liveRun else 0
      t.slot n = { e with
        latch := if last n = none then e.latch else last n
        orphanCount := orphan n
        liveRun := live
        shadowRun := shadow n
        peerAhead := if kind n = some .live then e.peerAhead || decide (held n ∧ uncut n)
          else if kind n = some .unknown then e.peerAhead else false
        peerShadow := if kind n = some .shadow ∨ kind n = some .unknown then e.peerShadow else false
        followDue := e.followDue ||
          decide (held n ∧ (phaseIs n .proven ∨ phaseIs n .cutting) ∧ kind n = some .live ∧ 8 ≤ live) } ∧
      (held n → uncut n → kind n = some .live → e.peerAhead = false →
        ⟨.peerAhead, c⟩ ∈ t.du.events ∨ t.du.lost = true)) ∧
    (∃ shadows orphans heards : List SlotNo,
      shadows.Pairwise (· < ·) ∧ orphans.Pairwise (· < ·) ∧ heards.Pairwise (· < ·) ∧
      (∀ n, n ∈ shadows ↔ held n ∧ phaseIs n .carried ∧ kind n = some .shadow ∧ 8 ≤ shadow n ∧
        (u.slot n).peerShadow = false) ∧
      (∀ n, n ∈ orphans ↔ held n ∧ (u.slot n).channel ≠ none ∧ kind n = none ∧
        u.sc.params.orphanFrames ≤ orphan n) ∧
      (∀ n, n ∈ heards ↔ inUse n ∧ phaseIs n .stranded ∧ (kind n = some .live ∨ kind n = some .shadow)) ∧
      let first := u.due ++ shadows.map Due.peerShadow ++ orphans.map Due.orphanTest
      (∃ aheads back : List SlotNo, aheads.Pairwise (· < ·) ∧ back.Pairwise (· < ·) ∧
        (∀ n, n ∈ aheads ↔ held n ∧ uncut n ∧ kind n = some .live ∧ (u.slot n).peerAhead = false) ∧
        (∀ n, n ∈ back ↔ first = [] ∧ n ∈ heards ∧ ∃ c, (u.slot n).channel = some c ∧
          (u.channel c).slot = some n ∧ (u.channel c).cause = some .silence) ∧
        let named (n : SlotNo) : Channel := (u.slot n).channel.getD 0
        t.du = back.foldl (fun d n => d.raised .unstranded (named n))
          (aheads.foldl (fun d n => d.raised .peerAhead (named n)) u.du)) ∧
      (first ≠ [] → t.due = first ++ heards.map Due.heard ∧ t.cm = u.cm) ∧
      (first = [] → t.due = [] ∧
        ∀ n c, n ∈ heards → (u.slot n).channel = some c → (u.channel c).slot = some n →
          t.channel c = { (u.channel c).moved .retired .fibre .idle .live with cause := none } ∧
          ((u.channel c).cause = some .silence → ⟨.unstranded, c⟩ ∈ t.du.events ∨ t.du.lost = true))) ∧
    (∀ c, (u.channel c).phase ≠ .stranded → t.channel c = u.channel c)

/-- The reply to an own notice (R94 to R97, R59): one that answers no outstanding notice, as with none
outstanding or another number, is ignored; a matching one
resolves it, a JOIN and a CUT by its row of the table, a LEAVE always; an agreed JOIN restarts the proof state of the
context; an attempt that was the eighth JOIN or the third CUT makes the failure due. The boundaries to go of an agreed CUT
that no frame has carried yet (`firstSent` none) are its countdown: there R96 names no frame, and this is the model's
choice (log 17). -/
def Obligations.RepliesResolveTheOutstandingNotice : Prop :=
  (∀ (r : Option ReplyField) (s : State), s.sn.outstanding = none → s.takeReply r = s) ∧
  ∀ (o : Outstanding) (reply : Reply) (s : State), s.sn.outstanding = some o →
    let r := s.channel o.channel
    let t := s.takeReply (some ⟨o.number, reply⟩)
    let again (k : NoticeKind) : List Request := s.sn.queue ++ [⟨k, o.channel⟩]
    (∀ m, m ≠ o.number → s.takeReply (some ⟨m, reply⟩) = s) ∧ s.takeReply none = s ∧
    t.sn.outstanding = none ∧ t.claimFrame = s.claimFrame ∧ keepsOtherChannels o.channel s t ∧
    keepsOtherSlots (some o.slot) s t ∧ t.cp.queue = s.cp.queue ∧
    (o.kind = .join → r.phase = .joining → r.slot = some o.slot →
      t.sn.schedules = s.sn.schedules ∧
      (reply = .agree → t.channel o.channel = r.moved .shadow .pass .pass .shadow ∧
        t.slot o.slot = (s.slot o.slot).given .held o.channel ∧ t.sn.queue = s.sn.queue ∧ t.due = s.due ∧
        t.du = s.du.raised .joined o.channel ∧ keepsOtherContexts r.context s t ∧
        ∀ k x, r.context = some k → s.context k = some x →
          t.context k = some { x with runs := List.replicate 16 0, activeSeen := 0, streak := 0 }) ∧
      (reply ≠ .agree → t.channel o.channel = { r with slot := none } ∧ t.du = s.du ∧
        t.slot o.slot = (if reply = .decline .slotBusy then
          { (s.slot o.slot).freed with state := .barred, barClock := 2 * s.sc.params.orphanFrames }
          else (s.slot o.slot).freed)) ∧
      (reply ≠ .agree → reply ≠ .decline .notReady → reply ≠ .decline .slotBusy →
        t.sn.queue = s.sn.queue ∧ t.due = s.due ++ [.joinFailed o.channel] ∧ t.cp = s.cp) ∧
      (∀ k x, (reply = .decline .notReady ∨ reply = .decline .slotBusy) → r.context = some k →
        s.context k = some x → keepsOtherContexts (some k) s t ∧
        (8 ≤ x.joinAttempts + 1 → t.context k = some { x with joinAttempts := x.joinAttempts + 1 } ∧
          t.sn.queue = s.sn.queue ∧ t.due = s.due ++ [.joinFailed o.channel]) ∧
        (x.joinAttempts + 1 < 8 → t.due = s.due ∧
          (reply = .decline .slotBusy → t.sn.queue = again .join ∧
            t.context k = some { x with joinAttempts := x.joinAttempts + 1 }) ∧
          (reply = .decline .notReady → t.sn.queue = s.sn.queue ∧
            t.context k = some { x with joinAttempts := x.joinAttempts + 1, retryGap := 800 })))) ∧
    (o.kind = .join → reply = .agree → r.phase ≠ .joining → t.channel o.channel = r ∧
      t.slot o.slot = (s.slot o.slot).freed) ∧
    (o.kind = .cut → t.channel o.channel = r ∧ t.slot o.slot = s.slot o.slot ∧ t.du = s.du ∧
      (reply = .agree → t.sn.queue = s.sn.queue ∧ t.due = s.due ∧ t.cp = s.cp ∧
        Assoc.find t.sn.schedules o.channel = some ⟨o.slot, match o.firstSent with
          | none => o.countdown
          | some p => p.1 - p.2⟩ ∧
        ∀ c, c ≠ o.channel → Assoc.find t.sn.schedules c = Assoc.find s.sn.schedules c) ∧
      (reply ≠ .agree → t.sn.schedules = s.sn.schedules) ∧
      (reply = .decline .crossed → s.cl.role = some .follow →
        t.sn.queue = again .cut ∧ t.due = s.due ∧ t.cp = s.cp) ∧
      (∀ k x, reply ≠ .agree → ¬ (reply = .decline .crossed ∧ s.cl.role = some .follow) → r.context = some k →
        s.context k = some x → t.context k = some { x with cutAttempts := x.cutAttempts + 1 } ∧
        keepsOtherContexts (some k) s t ∧
        t.sn.queue = (if 3 ≤ x.cutAttempts + 1 then s.sn.queue else again .cut) ∧
        t.due = s.due ++ (if 3 ≤ x.cutAttempts + 1 then [.cutFailed o.channel o.slot] else []))) ∧
    (o.kind = .leave → r.phase = .leaving → r.slot = some o.slot →
      t.channel o.channel = { r.moved .copper .pass .pass .none with slot := none, label := none } ∧
      t.slot o.slot = (if reply = .agree then (s.slot o.slot).freed else
        { (s.slot o.slot).freed with state := .barred, barClock := 2 * s.sc.params.orphanFrames }) ∧
      t.sn.queue = s.queueWithout .leave o.channel ∧ t.du = s.du.raised .left o.channel ∧ t.cp = s.cp ∧
      t.sn.schedules = s.sn.schedules ∧ t.due = s.due)

/-- The peer's notices (R100 to R103, R42, R51, R59, R134): NONE and a repeat change nothing; a new notice gets the reply
of its table, whose claims are made, and replaces the record. A JOIN_FAILED or CUT_FAILED that the reply of its header has
brought due is taken first, as its row takes it, and the notice is judged on the state that it leaves (R94, R100; the
steps due before it wait, log 31). -/
def Obligations.PeerNoticesAreAnsweredOnce : Prop :=
  (∀ (f : NoticeField) (k : NoticeKind) (front : List Due) (d : Due) (s : State), s.due = front ++ [d] →
    (∀ x ∈ front, (∀ c, x ≠ .joinFailed c) ∧ ∀ c n, x ≠ .cutFailed c n) →
    (∃ c, d = .joinFailed c) ∨ (∃ c n, d = .cutFailed c n) →
    f.kind = some k → (∀ p, s.sn.peer = some p → ¬ (p.number = f.number ∧ p.kind = k ∧ p.slot = f.slot)) →
    ∀ i, ownStep i = some d →
      ∃ v, exec i s = .next v ∧ v.due = front ∧ v.sn.peer = s.sn.peer ∧ s.takeNotice f = v.takeNotice f) ∧
  ∀ (f : NoticeField) (s : State), (∀ x ∈ s.due, (∀ c, x ≠ .joinFailed c) ∧ ∀ c n, x ≠ .cutFailed c n) →
    let n := f.slot
    let e := s.slot n
    let answered (k : NoticeKind) (u : State) (reply : Reply) : Prop :=
      s.takeNotice f = { u with sn := { u.sn with
        peer := some ⟨k, f.number, n, if k = .join then f.label else 0, reply⟩ } }
    let new (k : NoticeKind) : Prop := f.kind = some k ∧
      ∀ p, s.sn.peer = some p → ¬ (p.number = f.number ∧ p.kind = k ∧ p.slot = n)
    let owns (c : Channel) : Prop := ∃ p ∈ s.cm, p.1 = c ∧ p.2.phase ≠ .copper ∧ p.2.label = some f.label
    let single : Prop := ∀ c d, owns c → owns d → c = d
    let retiredGroup (p : Phase) : Prop := p ∈ [.retiring, .retired, .recalling, .stranded]
    let noticesKept (u : State) : Prop := u.sn.queue = s.sn.queue ∧ u.sn.outstanding = s.sn.outstanding ∧
      u.sn.schedules = s.sn.schedules ∧ u.due = s.due
    let mine : Prop := e.state = .held ∧ ∃ c, e.channel = some c ∧ (s.channel c).label = some f.label
    (f.kind = none → s.takeNotice f = s) ∧
    (∀ k p, f.kind = some k → s.sn.peer = some p → p.number = f.number → p.kind = k → p.slot = n →
      s.takeNotice f = s) ∧
    (new .join → s.cl.role = some .lead → answered .join s (.decline .crossed)) ∧
    (new .join → s.cl.role ≠ some .lead →
      (mine → answered .join s .agree) ∧
      (¬ mine → (∀ c, ¬ owns c) → answered .join s (.decline .unknown)) ∧
      (∀ c, ¬ mine → s.channelsInOrder → single → owns c → let r := s.channel c
        (e.state ≠ .free → answered .join s (.decline .slotBusy)) ∧
        (e.state = .free → r.phase = .joining → ∃ u, answered .join u .agree ∧
          u.channel c = { r.moved .shadow .pass .pass .shadow with slot := some n } ∧ keepsOtherChannels c s u ∧
          u.slot n = e.given .held c ∧ keepsOtherSlots (some n) s u ∧ u.du = s.du.raised .joined c ∧
          u.cp.queue = s.cp.queue ∧ noticesKept u ∧ keepsOtherContexts r.context s u ∧
          (∀ k x, r.context = some k → s.context k = some x →
            u.context k = some { x with runs := List.replicate 16 0, activeSeen := 0, streak := 0 }) ∧
          u.claimFrame = s.claimFrame) ∧
        (e.state = .free → r.phase = .enrolled → (∀ k, s.context k ≠ none) →
          answered .join s (.decline .notReady)) ∧
        (∀ k, e.state = .free → r.phase = .enrolled → s.context k = none → (∀ j, j < k → s.context j ≠ none) →
          ∃ u, answered .join u .agree ∧ u.channel c = { r.moved .shadow .pass .pass .shadow with
            slot := some n, context := some k, lag := 0 } ∧ keepsOtherChannels c s u ∧
          u.slot n = e.given .held c ∧ keepsOtherSlots (some n) s u ∧
          u.cp.queue = s.cp.queue.filter (fun x => decide (x ≠ c)) ∧ u.du = s.du.raised .joined c ∧
          u.context k = some {
            owner := c, delay := List.replicate 16 none, runs := List.replicate 16 0, activeSeen := 0,
            lastCopper := none, streak := 0, joinClock := 0, joinAttempts := 0, cutAttempts := 0, retryGap := 0,
            guardRemaining := 0, lastSubstituted := none, window := List.replicate 32 false } ∧
          keepsOtherContexts (some k) s u ∧ noticesKept u ∧ u.claimFrame = s.claimFrame) ∧
        (e.state = .free → retiredGroup r.phase → answered .join s (.decline .retired)) ∧
        (e.state = .free → ¬ retiredGroup r.phase → r.phase ≠ .joining → r.phase ≠ .enrolled →
          answered .join s (.decline .notReady)))) ∧
    (new .cut → e.state ≠ .held → answered .cut s (.decline .notProven)) ∧
    (∀ c, new .cut → e.state = .held → e.channel = some c → (s.channel c).slot = some n → let r := s.channel c
      let crossed := r.phase = .cutting ∧ s.outstandingWithout .cut c ≠ s.sn.outstanding
      (r.phase = .proven ∨ r.phase = .cutting ∧ ¬ (crossed ∧ s.cl.role = some .lead) →
        ∃ u, answered .cut u .agree ∧ u.channel c = (if r.phase = .proven then r.moved .cutting .pass .pass .shadow else r) ∧
          keepsOtherChannels c s u ∧
          u.sn.outstanding = (if r.phase = .proven then s.sn.outstanding else s.outstandingWithout .cut c) ∧
          u.sn.queue = (if r.phase = .proven then s.sn.queue else s.queueWithout .cut c) ∧
          Assoc.find u.sn.schedules c = some ⟨n, max 1 f.countdown.toNat⟩ ∧
          (∀ d, d ≠ c → Assoc.find u.sn.schedules d = Assoc.find s.sn.schedules d) ∧
          u.du = s.du ∧ u.cp = s.cp ∧ u.sn.slots = s.sn.slots ∧ u.claimFrame = s.claimFrame) ∧
      (crossed → s.cl.role = some .lead → answered .cut s (.decline .crossed)) ∧
      (r.phase = .carried → answered .cut s .agree) ∧
      (retiredGroup r.phase → answered .cut s (.decline .retired)) ∧
      (r.phase ∈ [.shadow, .fallen, .leaving] → answered .cut s (.decline .notProven))) ∧
    (new .leave → (e.channel = none ∨ e.state ∈ [.free, .reserved, .barred]) → answered .leave s .agree) ∧
    (∀ c, new .leave → e.channel = some c → (s.channel c).slot = some n → let r := s.channel c
      (e.state = .held → r.phase ∈ [.shadow, .proven, .cutting, .carried, .fallen] →
        ∃ u, answered .leave u .agree ∧ u.channel c = { r.moved .enrolled .pass .pass .none with
          slot := none, context := none, lag := 0, collapsed := false } ∧ keepsOtherChannels c s u ∧
        contextFreed r.context s u ∧ slotFreed (some n) s u ∧ u.sn.queue = s.queueWithout .cut c ∧
        u.cp.queue = (if r.phase = .fallen then s.cp.queue.filter fun x => decide (x ≠ c) else s.cp.queue) ++ [c] ∧
        u.sn.outstanding = s.outstandingWithout .cut c ∧ scheduleCancelled c s u ∧
        u.du = s.du.raised .peerLeft c ∧ u.claimFrame = s.claimFrame) ∧
      (e.state = .held ∨ e.state = .releasing → r.phase = .leaving →
        ∃ u, answered .leave u .agree ∧ u.channel c = { r.moved .copper .pass .pass .none with
          slot := none, label := none } ∧ keepsOtherChannels c s u ∧ slotFreed (some n) s u ∧
        u.sn.queue = s.queueWithout .leave c ∧ u.sn.outstanding = s.outstandingWithout .leave c ∧
        u.cp = s.cp ∧ u.du = s.du.raised .left c ∧ u.claimFrame = s.claimFrame) ∧
      (e.state = .held → retiredGroup r.phase → answered .leave s (.decline .retired)))

/-- A carrier frame read from the bytes it is sent as (R176, R72, R75) is the frame, every field at every value the layout
admits: no bit of it is dropped. -/
def Obligations.SentFramesReadBackWhole : Prop :=
  ∀ f : CarrierFrame, f.records.length ≤ 1024 → (∀ x ∈ f.records.dropLast, x.last = false) →
    (∀ x, f.records.getLast? = some x → x.last = true) →
    (frameBytes f).length = 16 + 5 * f.records.length ∧
    readFrame (frameBytes f) = some {
      number := f.number
      role := f.role
      notice := f.notice
      reply := f.reply
      records := f.records.map fun r => ⟨r, true⟩ }

/-! ## The retirement store -/

/-- The read-back of a slot's record (R147): the address written, a repeated start, and eight bytes read, each acknowledged
but the last. -/
def Sys2Proof.Machine.readBackEvents (n : SlotNo) : List LineEvent :=
  [.send (BitVec.ofNat 8 ((64 + 8 * n.val) / 256)), .send (BitVec.ofNat 8 (64 + 8 * n.val)), .repeatedStart,
    .send 0xA1#8] ++ List.replicate 7 (.receive true) ++ [.receive false, .stop]

/-- The write of a request (R142, R144 to R148, R177): the eight bytes of a record, the start of the head request, the
page write, the polls, the timeout, a missing acknowledge and the retry. A failed TARGET attempt sets the fault and turns
to REINSTATEMENT; a failed REINSTATEMENT pauses for 160 boundaries. The operand of the acknowledged poll says which bits
the programming left wrong (log 7). A missing acknowledge ends its transfer at the byte or line event it meets; an
unacknowledged poll is one. Five clauses are the model's choice: a byte not acknowledged in POLL is an unacknowledged poll and leaves
the stage as it is (log 18), and so does a line held low there (log 38); a clock held low after the last data byte leaves
the page unprogrammed (log 37); the line is released data first (log 34); and a page still being programmed when the store
acknowledges its address in a later page write has been finished as it was sent (log 21). -/
def Obligations.StoreWriteGoesThroughItsStages : Prop :=
  (∀ (r : WriteRequest) (p : Purpose), ∃ check : Byte,
    let number : Word := BitVec.ofNat 16 r.channel.val
    let bytes : List Byte := [if decide (r.kind = .retire) = decide (p = .target) then 0xA7#8 else 0#8,
      number.extractLsb' 8 8, number.extractLsb' 0 8, r.label.extractLsb' 8 8, r.label.extractLsb' 0 8,
      0#4 ++ r.idle.extractLsb' 8 4, r.idle.extractLsb' 0 8, check]
    writtenRecord r p = bytes ∧ ((bytes.map BitVec.toNat).sum + r.slot.val % 256) % 256 = 0) ∧
  (∀ (r : WriteRequest) (rest : List WriteRequest) (s : State), .storeWriteStart ∈ s.due → s.sc.flight = none →
    s.sc.queue = r :: rest → exec .storeWriteStart s = .next { s with
      sc := { s.sc with queue := rest, flight := some ⟨r, .target, .program⟩ }
      due := s.due.erase .storeWriteStart }) ∧
  (∀ (r : WriteRequest) (p : Purpose) (s : State), .reinstatementRetry ∈ s.due →
    s.sc.flight = some ⟨r, p, .pause 0⟩ → exec .reinstatementRetry s = .next { s with
      sc := { s.sc with flight := some ⟨r, p, .program⟩ }
      due := s.due.erase .reinstatementRetry }) ∧
  (∀ (r : WriteRequest) (p : Purpose) (s : State), s.steady →
    let flight (x : Flight) (line : List LineEvent) : State :=
      { s with sc := { s.sc with flight := some x }, ports := { s.ports with line := line } }
    let failed (line : List LineEvent) : State := { s with
      sc := { s.sc with
        fault := true
        flight := some (if p = .target then ⟨r, .reinstatement, .program⟩ else ⟨r, p, .pause 160⟩) }
      ports := { s.ports with line := line } }
    let address : List Byte := [BitVec.ofNat 8 ((64 + 8 * r.slot.val) / 256), BitVec.ofNat 8 (64 + 8 * r.slot.val)]
    let page : List LineEvent :=
      [.start] ++ ([0xA0#8] ++ address ++ writtenRecord r p).map LineEvent.send ++ [.stop]
    let finished : Memory := match s.store.programming with
      | none => s.store.cells
      | some (n, bytes) => s.store.cells.writeBytes (64 + 8 * n.val) bytes
    let back := readBackEvents r.slot
    (s.sc.flight = some ⟨r, p, .program⟩ →
      exec .pageWriteEnd s = .next { flight ⟨r, p, .poll⟩ page with
        store := {
          cells := finished
          programming := some (r.slot, writtenRecord r p) } }) ∧
    (s.sc.flight = some ⟨r, p, .poll⟩ →
      exec (.storePoll .noAck) s =
        .next { s with ports := { s.ports with line := [.start, .send 0xA0#8, .stop, .releaseData, .releaseClock] } } ∧
      (∀ wrong bytes, s.store.programming = some (r.slot, bytes) → exec (.storePoll (.acked wrong)) s =
        .next { flight ⟨r, p, .verify⟩ [.start, .send 0xA0#8] with
          store := ⟨s.store.cells.writeBytes (64 + 8 * r.slot.val) (invertBits bytes wrong), none⟩ }) ∧
      exec .pollTimeout s = .next (failed [])) ∧
    let release : List LineEvent := [.stop, .releaseData, .releaseClock]
    (s.sc.flight = some ⟨r, p, .program⟩ → s.transfer = page ∧
      s.endsAtTheFault page fun fault sent => { failed (sent ++ release) with
        store := if 2 ≤ fault.place then ⟨finished, none⟩ else s.store }) ∧
    (s.sc.flight = some ⟨r, p, .poll⟩ → s.transfer = [.start, .send 0xA0#8, .stop] ∧
      s.endsAtTheFault [.start, .send 0xA0#8, .stop] fun _ sent =>
        { s with ports := { s.ports with line := sent ++ release } }) ∧
    (s.sc.flight = some ⟨r, p, .verify⟩ → s.transfer = back ∧
      s.endsAtTheFault back fun _ sent => failed (sent ++ release)))

/-- STORE_VERIFY and the outcome (R147, R148, R37, R38, R149): read back unequal, the attempt fails; equal, the write
leaves flight with store done or store failed, and the channel goes by its phase, its origin and the link; the fault is
cleared by a TARGET alone, and the next head comes due. A record that the store holds otherwise than it was written never
reads back equal, whatever the line disturbs (R142; DEDUCED, log 36). The whole read-back is driven on the line. -/
def Obligations.VerifiedWriteSettlesItsChannel : Prop :=
  ∀ (r : WriteRequest) (p : Purpose) (disturbed : BitVec 64) (s : State), s.steady →
    s.sc.flight = some ⟨r, p, .verify⟩ →
    let written := writtenRecord r p
    let equal : Prop := s.store.cells.readBytes (64 + 8 * r.slot.val) 8 = written ∧ invertBits written disturbed = written
    let x := s.channel r.channel
    let up := s.cl.link = .up
    (¬ equal → ∃ t, exec (.storeVerify disturbed) s = .next t ∧
      t.sc = { s.sc with
        fault := true
        flight := some (if p = .target then ⟨r, .reinstatement, .program⟩ else ⟨r, p, .pause 160⟩) } ∧
      t.ports = { s.ports with line := readBackEvents r.slot } ∧ { t with sc := s.sc, ports := s.ports } = s) ∧
    (equal → ∃ t, exec (.storeVerify disturbed) s = .next t ∧
      t.sc = { s.sc with flight := none, fault := if p = .target then false else s.sc.fault } ∧
      t.ports = { s.ports with line := readBackEvents r.slot } ∧
      t.due = (if s.sc.queue = [] then [] else [.storeWriteStart]) ∧ keepsOtherChannels r.channel s t ∧
      { t with
        sc := s.sc
        cm := s.cm
        cp := { t.cp with queue := s.cp.queue }
        du := s.du
        ports := s.ports
        due := s.due } = s ∧
      let fallen : ChannelRecord := { x.moved .fallen .pass .pass .shadow with
        collapsed := false, cause := none, origin := none }
      let carried : ChannelRecord := { x.moved .carried .fibre .pass .live with collapsed := true }
      let became (y : ChannelRecord) (event : EventKind) (falls : Bool) : Prop :=
        t.channel r.channel = y ∧ t.du = s.du.raised event r.channel ∧
        t.cp.queue = (if falls = true then s.cp.queue ++ [r.channel] else s.cp.queue)
      (p = .target → x.phase = .retiring → up → became (x.moved .retired .fibre .idle .live) .retired false) ∧
      (p = .target → x.phase = .retiring → ¬ up →
        became { x.moved .stranded .idle .idle .live with cause := some .link } .retired false) ∧
      (p = .target → x.phase = .recalling → x.origin = some .retired → up →
        became { carried with origin := none, cause := none } .recalled false) ∧
      (p = .target → x.phase = .recalling → x.origin = some .stranded ∨ ¬ up → became fallen .fallen true) ∧
      (p = .reinstatement → x.phase = .retiring → up → became carried .storeFailed false) ∧
      (p = .reinstatement → x.phase = .retiring → ¬ up → became fallen .storeFailed true) ∧
      (p = .reinstatement → x.phase = .recalling → x.origin = some .retired → up →
        became { x.moved .retired .fibre .idle .live with origin := none } .storeFailed false) ∧
      (p = .reinstatement → x.phase = .recalling → x.origin = some .retired → ¬ up →
        became { x.moved .stranded .idle .idle .live with origin := none, cause := some .link } .storeFailed false) ∧
      (p = .reinstatement → x.phase = .recalling → x.origin = some .stranded →
        became { x.moved .stranded .idle .idle .live with origin := none } .storeFailed false))

/-! ## Invariants -/

/-- Every step keeps the bytes of the retirement store in canonical form, at most 32 events in the event queue (R164) and
at most 16 requests in the store queue (R143); and every step keeps each channel's pending route the triple of its phase
(R25, R26), and the channel records and the slot entries in ascending order, each listed once. -/
def Obligations.EveryStepKeepsTheStoreTheQueuesAndTheRoutes : Prop :=
  (∀ s t : State, s.memoryCanonical → s.eventsBounded → s.storeQueueBounded → step s = .next t →
    t.memoryCanonical ∧ t.eventsBounded ∧ t.storeQueueBounded) ∧
  (∀ s t : State, s.routesFollow → s.channelsInOrder → s.slotsInOrder → step s = .next t →
    t.routesFollow ∧ t.channelsInOrder ∧ t.slotsInOrder)

/-- Every step keeps the blocks consistent: a context and a slot exactly by phase (R23), contexts and owners naming each
other (R46), the proof queue exact (R48), slots in use and channels naming each other (R85), no channel with two own
requests and each request of its channel's phase (R90), and schedules for CUTTING channels alone (R99). What the due steps
and the load add to it is the model's own (log 1). With it, every step keeps the conditional fields of a channel record
present as R22 says, no two channels outside COPPER with one label (R22), at most 1024 channels outside COPPER (R24), and at
most 96 requests in the notice queue, at most 32 of them LEAVE (R90); and a valid RETIRED record in the store for each channel
in RETIRED or STRANDED, and in RECALLING until the page write of its void record, naming it (R142), with at most one write
request for a channel (R143), and a page being programmed for the write in flight alone. -/
def Obligations.EveryStepKeepsTheBlocksConsistent : Prop :=
  ∀ s t : State, s.channelsInOrder → s.slotsInOrder → s.consistent → step s = .next t →
    t.consistent ∧ (s.bounded → t.bounded) ∧ (s.recorded → t.recorded)

/-- The invariants hold at the end of the reset (R22 to R24, R44, R46, R48, R85, R90, R99, R142, R143, R164, R166), and no own
step is due there. -/
def Obligations.InvariantsHoldAtReset : Prop :=
  State.reset.memoryCanonical ∧ State.reset.eventsBounded ∧ State.reset.storeQueueBounded ∧
  State.reset.routesFollow ∧ State.reset.channelsInOrder ∧ State.reset.slotsInOrder ∧ State.reset.consistent ∧
  State.reset.bounded ∧ State.reset.recorded ∧ State.reset.due = []
end

