-- ==== Sys2Proof/Laws/Memory.lean ====
section
/-! SUPPORT. Sparse data and the bytes of the retirement store: what a read gives after a write, and that every memory
operation keeps the canonical form. -/

namespace Sys2Proof.Assoc

variable {κ α : Type} [DecidableEq κ]

@[simp] theorem find_nil (k : κ) : find ([] : Assoc κ α) k = none := rfl

theorem find_cons (j : κ) (w : α) (t : Assoc κ α) (k : κ) :
    find ((j, w) :: t) k = if j = k then some w else find t k := rfl

theorem put_cons [LT κ] [DecidableLT κ] (j : κ) (w : α) (t : Assoc κ α) (k : κ) (v : α) :
    put ((j, w) :: t) k v =
      if k < j then (k, v) :: (j, w) :: t else if j = k then (k, v) :: t else (j, w) :: put t k v := rfl

theorem drop_cons (j : κ) (w : α) (t : Assoc κ α) (k : κ) :
    drop ((j, w) :: t) k = if j = k then drop t k else (j, w) :: drop t k := rfl

theorem find_drop_same (m : Assoc κ α) (k : κ) : find (drop m k) k = none := by
  induction m with
  | nil => rfl
  | cons p t ih =>
    obtain ⟨j, w⟩ := p
    by_cases h : j = k <;> simp [drop, find, h, ih]

theorem find_drop_other (m : Assoc κ α) {k j : κ} (h : j ≠ k) : find (drop m k) j = find m j := by
  induction m with
  | nil => rfl
  | cons p t ih =>
    obtain ⟨i, w⟩ := p
    rw [drop_cons, find_cons]
    by_cases hi : i = k
    · rw [if_pos hi, ih, if_neg (fun e => h (e.symm.trans hi))]
    · rw [if_neg hi, find_cons, ih]

theorem find_put_same [LT κ] [DecidableLT κ] (m : Assoc κ α) (k : κ) (v : α) : find (put m k v) k = some v := by
  induction m with
  | nil => simp [put, find]
  | cons p t ih =>
    obtain ⟨j, w⟩ := p
    rw [put_cons]
    by_cases h₁ : k < j
    · rw [if_pos h₁, find_cons, if_pos rfl]
    · rw [if_neg h₁]
      by_cases h₂ : j = k
      · rw [if_pos h₂, find_cons, if_pos rfl]
      · rw [if_neg h₂, find_cons, if_neg h₂, ih]

theorem find_put_other [LT κ] [DecidableLT κ] (m : Assoc κ α) {k j : κ} (v : α) (h : j ≠ k) :
    find (put m k v) j = find m j := by
  induction m with
  | nil => simp [put, find, Ne.symm h]
  | cons p t ih =>
    obtain ⟨i, w⟩ := p
    rw [put_cons]
    by_cases h₁ : k < i
    · rw [if_pos h₁, find_cons, if_neg (Ne.symm h)]
    · rw [if_neg h₁]
      by_cases h₂ : i = k
      · rw [if_pos h₂, find_cons, if_neg (Ne.symm h), find_cons, if_neg (fun e => h (e.symm.trans h₂))]
      · rw [if_neg h₂, find_cons, find_cons, ih]

theorem find_mapValues (f : κ → α → α) (m : Assoc κ α) (k : κ) :
    find (mapValues f m) k = (find m k).map (f k) := by
  induction m with
  | nil => rfl
  | cons p t ih =>
    obtain ⟨j, w⟩ := p
    by_cases h : j = k
    · subst h; simp [mapValues, find]
    · simp [mapValues, find, h, ih]

/-- Whatever holds of every value listed and of a value put holds of every value after. -/
theorem forall_put [LT κ] [DecidableLT κ] {P : κ × α → Prop} {m : Assoc κ α} {k : κ} {v : α}
    (hm : ∀ p ∈ m, P p) (hv : P (k, v)) : ∀ p ∈ put m k v, P p := by
  induction m with
  | nil => simpa [put] using hv
  | cons q t ih =>
    obtain ⟨j, w⟩ := q
    have hq : P (j, w) := hm (j, w) (by simp)
    have ht : ∀ p ∈ t, P p := fun p hp => hm p (by simp [hp])
    intro p hp
    rw [put_cons] at hp
    by_cases h₁ : k < j
    · rw [if_pos h₁] at hp
      rcases List.mem_cons.mp hp with rfl | hp
      · exact hv
      · exact hm p hp
    · rw [if_neg h₁] at hp
      by_cases h₂ : j = k
      · rw [if_pos h₂] at hp
        rcases List.mem_cons.mp hp with rfl | hp
        · exact hv
        · exact ht p hp
      · rw [if_neg h₂] at hp
        rcases List.mem_cons.mp hp with rfl | hp
        · exact hq
        · exact ih ht p hp

/-- A value found is listed. -/
theorem mem_of_find {m : Assoc κ α} {k : κ} {v : α} (h : find m k = some v) : (k, v) ∈ m := by
  induction m with
  | nil => simp at h
  | cons p t ih =>
    obtain ⟨j, w⟩ := p
    by_cases hj : j = k
    · subst hj; simp [find] at h; simp [h]
    · simp only [find, hj, if_false] at h
      exact List.mem_cons_of_mem _ (ih h)

end Sys2Proof.Assoc

namespace Sys2Proof.Machine.Memory

/-- Every address listed lies above `a`. -/
def Above (a : Nat) : Memory → Prop
  | [] => True
  | (b, _) :: _ => a < b

theorem wf_cons (a : Nat) (b : Byte) (t : Memory) :
    wf ((a, b) :: t) = true ↔ b ≠ Config.unwrittenByte ∧ Above a t ∧ wf t = true := by
  cases t with
  | nil => simp [wf, Above]
  | cons p t => simp [wf, Above, and_assoc]

theorem Above.mono {a b : Nat} {m : Memory} (h : a < b) (hb : Above b m) : Above a m := by
  cases m with
  | nil => trivial
  | cons p t => exact Nat.lt_trans h hb

theorem above_drop {a k : Nat} {m : Memory} (hw : wf m = true) (h : Above a m) : Above a (Assoc.drop m k) := by
  induction m with
  | nil => trivial
  | cons p t ih =>
    obtain ⟨j, w⟩ := p
    rw [wf_cons] at hw
    by_cases hj : j = k
    · simp only [Assoc.drop, hj, if_true]
      exact ih hw.2.2 (Above.mono h hw.2.1)
    · simp only [Assoc.drop, hj, if_false]
      exact h

theorem wf_drop {m : Memory} (k : Nat) (h : wf m = true) : wf (Assoc.drop m k) = true := by
  induction m with
  | nil => rfl
  | cons p t ih =>
    obtain ⟨j, w⟩ := p
    rw [wf_cons] at h
    by_cases hj : j = k
    · simpa only [Assoc.drop, hj, if_true] using ih h.2.2
    · simp only [Assoc.drop, hj, if_false]
      rw [wf_cons]
      exact ⟨h.1, above_drop h.2.2 h.2.1, ih h.2.2⟩

theorem above_put {a k : Nat} {b : Byte} {m : Memory} (hk : a < k) (h : Above a m) : Above a (Assoc.put m k b) := by
  cases m with
  | nil => exact hk
  | cons p t =>
    obtain ⟨j, w⟩ := p
    rw [Assoc.put_cons]
    by_cases h₁ : k < j
    · rw [if_pos h₁]; exact hk
    · rw [if_neg h₁]
      by_cases h₂ : j = k
      · rw [if_pos h₂]; exact hk
      · rw [if_neg h₂]; exact h

theorem wf_put {m : Memory} (k : Nat) {b : Byte} (hb : b ≠ Config.unwrittenByte) (h : wf m = true) :
    wf (Assoc.put m k b) = true := by
  induction m with
  | nil => simpa [Assoc.put, wf] using hb
  | cons p t ih =>
    obtain ⟨j, w⟩ := p
    have hc := (wf_cons j w t).mp h
    rw [Assoc.put_cons]
    by_cases h₁ : k < j
    · rw [if_pos h₁, wf_cons]
      exact ⟨hb, h₁, h⟩
    · rw [if_neg h₁]
      by_cases h₂ : j = k
      · rw [if_pos h₂, wf_cons]
        exact ⟨hb, h₂ ▸ hc.2.1, hc.2.2⟩
      · rw [if_neg h₂, wf_cons]
        exact ⟨hc.1, above_put (by omega) hc.2.1, ih hc.2.2⟩

/-- One byte written keeps the canonical form. -/
theorem wf_write {m : Memory} (a : Nat) (b : Byte) (h : wf m = true) : wf (m.write a b) = true := by
  unfold write
  split
  · exact wf_drop a h
  · rename_i hb; exact wf_put a hb h

/-- Bytes written keep the canonical form. -/
theorem wf_writeBytes {m : Memory} (a : Nat) (bs : List Byte) (h : wf m = true) : wf (m.writeBytes a bs) = true := by
  induction bs generalizing m a with
  | nil => exact h
  | cons b t ih => exact ih (a + 1) (wf_write a b h)

/-- A byte reads as it was written. -/
theorem read_write_same (m : Memory) (a : Nat) (b : Byte) : (m.write a b).read a = b := by
  unfold write read
  split
  · rename_i h; simp [Assoc.find_drop_same, h]
  · simp [Assoc.find_put_same]

/-- A write leaves every other byte. -/
theorem read_write_other (m : Memory) {a c : Nat} (b : Byte) (h : c ≠ a) : (m.write a b).read c = m.read c := by
  unfold write read
  split
  · rw [Assoc.find_drop_other _ h]
  · rw [Assoc.find_put_other _ _ h]

/-- Bytes written from `a` on leave every byte outside them. -/
theorem read_writeBytes_outside (m : Memory) (a c : Nat) (bs : List Byte) (h : c < a ∨ a + bs.length ≤ c) :
    (m.writeBytes a bs).read c = m.read c := by
  induction bs generalizing m a with
  | nil => rfl
  | cons b t ih =>
    have hc : c ≠ a := by
      rcases h with h | h
      · omega
      · simp only [List.length_cons] at h; omega
    have ht : c < a + 1 ∨ a + 1 + t.length ≤ c := by
      rcases h with h | h
      · omega
      · simp only [List.length_cons] at h; omega
    simp only [writeBytes]
    rw [ih _ _ ht, read_write_other _ _ hc]

/-- Bytes read where they were written are the bytes written. -/
theorem readBytes_writeBytes (m : Memory) (a : Nat) (bs : List Byte) :
    (m.writeBytes a bs).readBytes a bs.length = bs := by
  induction bs generalizing m a with
  | nil => rfl
  | cons b t ih =>
    simp only [writeBytes, List.length_cons, readBytes]
    rw [ih, read_writeBytes_outside _ _ _ _ (by omega), read_write_same]

end Sys2Proof.Machine.Memory

namespace Sys2Proof.Machine

theorem wf_commit {x : RetirementStore} (h : Memory.wf x.cells = true) : Memory.wf x.commit.cells = true := by
  unfold RetirementStore.commit
  split
  · exact h
  · exact Memory.wf_writeBytes _ _ h

theorem wf_commitWith {x : RetirementStore} (w : BitVec 64) (h : Memory.wf x.cells = true) :
    Memory.wf (x.commitWith w).cells = true := by
  unfold RetirementStore.commitWith
  split
  · exact h
  · exact Memory.wf_writeBytes _ _ h

theorem wf_throughReset {x : RetirementStore} (c : ResetCause) (n : Nat) (h : Memory.wf x.cells = true) :
    Memory.wf (x.throughReset c n).cells = true := by
  unfold RetirementStore.throughReset
  split
  · exact h
  · exact wf_commit h
  · exact Memory.wf_writeBytes _ _ h

/-- The retirement store at reset is in canonical form. -/
theorem wf_reset : Memory.wf State.reset.store.cells = true := rfl

end Sys2Proof.Machine
end

