-- ==== Sys2Proof/Laws/State.lean ====
section
/-! SUPPORT. One lemma per field of the state and named update: what each update leaves and what it makes. -/

namespace Sys2Proof.Machine.State

@[simp] theorem addDue_part (s : State) (d : Due) : (s.addDue d).part = s.part := rfl
@[simp] theorem addDue_resetHeld (s : State) (d : Due) : (s.addDue d).resetHeld = s.resetHeld := rfl
@[simp] theorem addDue_ft (s : State) (d : Due) : (s.addDue d).ft = s.ft := rfl
@[simp] theorem addDue_bi (s : State) (d : Due) : (s.addDue d).bi = s.bi := rfl
@[simp] theorem addDue_cm (s : State) (d : Due) : (s.addDue d).cm = s.cm := rfl
@[simp] theorem addDue_cp (s : State) (d : Due) : (s.addDue d).cp = s.cp := rfl
@[simp] theorem addDue_cl (s : State) (d : Due) : (s.addDue d).cl = s.cl := rfl
@[simp] theorem addDue_sn (s : State) (d : Due) : (s.addDue d).sn = s.sn := rfl
@[simp] theorem addDue_du (s : State) (d : Due) : (s.addDue d).du = s.du := rfl
@[simp] theorem addDue_sc (s : State) (d : Due) : (s.addDue d).sc = s.sc := rfl
@[simp] theorem addDue_store (s : State) (d : Due) : (s.addDue d).store = s.store := rfl
@[simp] theorem addDue_ports (s : State) (d : Due) : (s.addDue d).ports = s.ports := rfl
@[simp] theorem addDue_due (s : State) (d : Due) : (s.addDue d).due = s.due ++ [d] := rfl
@[simp] theorem addDue_freeUsed (s : State) (d : Due) : (s.addDue d).freeUsed = s.freeUsed := rfl
@[simp] theorem addDue_pending (s : State) (d : Due) : (s.addDue d).pending = s.pending := rfl

@[simp] theorem drive_part (s : State) (l : List LineEvent) : (s.drive l).part = s.part := rfl
@[simp] theorem drive_resetHeld (s : State) (l : List LineEvent) : (s.drive l).resetHeld = s.resetHeld := rfl
@[simp] theorem drive_ft (s : State) (l : List LineEvent) : (s.drive l).ft = s.ft := rfl
@[simp] theorem drive_bi (s : State) (l : List LineEvent) : (s.drive l).bi = s.bi := rfl
@[simp] theorem drive_cm (s : State) (l : List LineEvent) : (s.drive l).cm = s.cm := rfl
@[simp] theorem drive_cp (s : State) (l : List LineEvent) : (s.drive l).cp = s.cp := rfl
@[simp] theorem drive_cl (s : State) (l : List LineEvent) : (s.drive l).cl = s.cl := rfl
@[simp] theorem drive_sn (s : State) (l : List LineEvent) : (s.drive l).sn = s.sn := rfl
@[simp] theorem drive_du (s : State) (l : List LineEvent) : (s.drive l).du = s.du := rfl
@[simp] theorem drive_sc (s : State) (l : List LineEvent) : (s.drive l).sc = s.sc := rfl
@[simp] theorem drive_store (s : State) (l : List LineEvent) : (s.drive l).store = s.store := rfl
@[simp] theorem drive_ports (s : State) (l : List LineEvent) : (s.drive l).ports = { s.ports with line := l } := rfl
@[simp] theorem drive_due (s : State) (l : List LineEvent) : (s.drive l).due = s.due := rfl
@[simp] theorem drive_freeUsed (s : State) (l : List LineEvent) : (s.drive l).freeUsed = s.freeUsed := rfl
@[simp] theorem drive_pending (s : State) (l : List LineEvent) : (s.drive l).pending = s.pending := rfl

@[simp] theorem setChannel_part (s : State) (c : Channel) (r : ChannelRecord) :
    (s.setChannel c r).part =
      s.part := rfl
@[simp] theorem setChannel_resetHeld (s : State) (c : Channel) (r : ChannelRecord) :
    (s.setChannel c r).resetHeld =
      s.resetHeld := rfl
@[simp] theorem setChannel_ft (s : State) (c : Channel) (r : ChannelRecord) : (s.setChannel c r).ft = s.ft := rfl
@[simp] theorem setChannel_bi (s : State) (c : Channel) (r : ChannelRecord) : (s.setChannel c r).bi = s.bi := rfl
@[simp] theorem setChannel_cm (s : State) (c : Channel) (r : ChannelRecord) :
    (s.setChannel c r).cm =
      Assoc.put s.cm c r := rfl
@[simp] theorem setChannel_cp (s : State) (c : Channel) (r : ChannelRecord) : (s.setChannel c r).cp = s.cp := rfl
@[simp] theorem setChannel_cl (s : State) (c : Channel) (r : ChannelRecord) : (s.setChannel c r).cl = s.cl := rfl
@[simp] theorem setChannel_sn (s : State) (c : Channel) (r : ChannelRecord) : (s.setChannel c r).sn = s.sn := rfl
@[simp] theorem setChannel_du (s : State) (c : Channel) (r : ChannelRecord) : (s.setChannel c r).du = s.du := rfl
@[simp] theorem setChannel_sc (s : State) (c : Channel) (r : ChannelRecord) : (s.setChannel c r).sc = s.sc := rfl
@[simp] theorem setChannel_store (s : State) (c : Channel) (r : ChannelRecord) :
    (s.setChannel c r).store =
      s.store := rfl
@[simp] theorem setChannel_ports (s : State) (c : Channel) (r : ChannelRecord) :
    (s.setChannel c r).ports =
      s.ports := rfl
@[simp] theorem setChannel_due (s : State) (c : Channel) (r : ChannelRecord) : (s.setChannel c r).due = s.due := rfl
@[simp] theorem setChannel_freeUsed (s : State) (c : Channel) (r : ChannelRecord) :
    (s.setChannel c r).freeUsed =
      s.freeUsed := rfl
@[simp] theorem setChannel_pending (s : State) (c : Channel) (r : ChannelRecord) :
    (s.setChannel c r).pending =
      s.pending := rfl

@[simp] theorem modChannel_part (s : State) (c : Channel) (f : ChannelRecord → ChannelRecord) :
    (s.modChannel c f).part =
      s.part := rfl
@[simp] theorem modChannel_resetHeld (s : State) (c : Channel) (f : ChannelRecord → ChannelRecord) :
    (s.modChannel c f).resetHeld =
      s.resetHeld := rfl
@[simp] theorem modChannel_ft (s : State) (c : Channel) (f : ChannelRecord → ChannelRecord) :
    (s.modChannel c f).ft =
      s.ft := rfl
@[simp] theorem modChannel_bi (s : State) (c : Channel) (f : ChannelRecord → ChannelRecord) :
    (s.modChannel c f).bi =
      s.bi := rfl
@[simp] theorem modChannel_cm (s : State) (c : Channel) (f : ChannelRecord → ChannelRecord) :
    (s.modChannel c f).cm =
      Assoc.put s.cm c (f (s.channel c)) := rfl
@[simp] theorem modChannel_cp (s : State) (c : Channel) (f : ChannelRecord → ChannelRecord) :
    (s.modChannel c f).cp =
      s.cp := rfl
@[simp] theorem modChannel_cl (s : State) (c : Channel) (f : ChannelRecord → ChannelRecord) :
    (s.modChannel c f).cl =
      s.cl := rfl
@[simp] theorem modChannel_sn (s : State) (c : Channel) (f : ChannelRecord → ChannelRecord) :
    (s.modChannel c f).sn =
      s.sn := rfl
@[simp] theorem modChannel_du (s : State) (c : Channel) (f : ChannelRecord → ChannelRecord) :
    (s.modChannel c f).du =
      s.du := rfl
@[simp] theorem modChannel_sc (s : State) (c : Channel) (f : ChannelRecord → ChannelRecord) :
    (s.modChannel c f).sc =
      s.sc := rfl
@[simp] theorem modChannel_store (s : State) (c : Channel) (f : ChannelRecord → ChannelRecord) :
    (s.modChannel c f).store =
      s.store := rfl
@[simp] theorem modChannel_ports (s : State) (c : Channel) (f : ChannelRecord → ChannelRecord) :
    (s.modChannel c f).ports =
      s.ports := rfl
@[simp] theorem modChannel_due (s : State) (c : Channel) (f : ChannelRecord → ChannelRecord) :
    (s.modChannel c f).due =
      s.due := rfl
@[simp] theorem modChannel_freeUsed (s : State) (c : Channel) (f : ChannelRecord → ChannelRecord) :
    (s.modChannel c f).freeUsed =
      s.freeUsed := rfl
@[simp] theorem modChannel_pending (s : State) (c : Channel) (f : ChannelRecord → ChannelRecord) :
    (s.modChannel c f).pending =
      s.pending := rfl

@[simp] theorem setContext_part (s : State) (k : CtxNo) (x : Context) : (s.setContext k x).part = s.part := rfl
@[simp] theorem setContext_resetHeld (s : State) (k : CtxNo) (x : Context) :
    (s.setContext k x).resetHeld =
      s.resetHeld := rfl
@[simp] theorem setContext_ft (s : State) (k : CtxNo) (x : Context) : (s.setContext k x).ft = s.ft := rfl
@[simp] theorem setContext_bi (s : State) (k : CtxNo) (x : Context) : (s.setContext k x).bi = s.bi := rfl
@[simp] theorem setContext_cm (s : State) (k : CtxNo) (x : Context) : (s.setContext k x).cm = s.cm := rfl
@[simp] theorem setContext_cp (s : State) (k : CtxNo) (x : Context) :
    (s.setContext k x).cp =
      { s.cp with contexts := Assoc.put s.cp.contexts k x } := rfl
@[simp] theorem setContext_cl (s : State) (k : CtxNo) (x : Context) : (s.setContext k x).cl = s.cl := rfl
@[simp] theorem setContext_sn (s : State) (k : CtxNo) (x : Context) : (s.setContext k x).sn = s.sn := rfl
@[simp] theorem setContext_du (s : State) (k : CtxNo) (x : Context) : (s.setContext k x).du = s.du := rfl
@[simp] theorem setContext_sc (s : State) (k : CtxNo) (x : Context) : (s.setContext k x).sc = s.sc := rfl
@[simp] theorem setContext_store (s : State) (k : CtxNo) (x : Context) : (s.setContext k x).store = s.store := rfl
@[simp] theorem setContext_ports (s : State) (k : CtxNo) (x : Context) : (s.setContext k x).ports = s.ports := rfl
@[simp] theorem setContext_due (s : State) (k : CtxNo) (x : Context) : (s.setContext k x).due = s.due := rfl
@[simp] theorem setContext_freeUsed (s : State) (k : CtxNo) (x : Context) :
    (s.setContext k x).freeUsed =
      s.freeUsed := rfl
@[simp] theorem setContext_pending (s : State) (k : CtxNo) (x : Context) :
    (s.setContext k x).pending =
      s.pending := rfl

@[simp] theorem freeContext_part (s : State) (k : CtxNo) : (s.freeContext k).part = s.part := rfl
@[simp] theorem freeContext_resetHeld (s : State) (k : CtxNo) : (s.freeContext k).resetHeld = s.resetHeld := rfl
@[simp] theorem freeContext_ft (s : State) (k : CtxNo) : (s.freeContext k).ft = s.ft := rfl
@[simp] theorem freeContext_bi (s : State) (k : CtxNo) : (s.freeContext k).bi = s.bi := rfl
@[simp] theorem freeContext_cm (s : State) (k : CtxNo) : (s.freeContext k).cm = s.cm := rfl
@[simp] theorem freeContext_cp (s : State) (k : CtxNo) :
    (s.freeContext k).cp =
      { s.cp with contexts := Assoc.drop s.cp.contexts k } := rfl
@[simp] theorem freeContext_cl (s : State) (k : CtxNo) : (s.freeContext k).cl = s.cl := rfl
@[simp] theorem freeContext_sn (s : State) (k : CtxNo) : (s.freeContext k).sn = s.sn := rfl
@[simp] theorem freeContext_du (s : State) (k : CtxNo) : (s.freeContext k).du = s.du := rfl
@[simp] theorem freeContext_sc (s : State) (k : CtxNo) : (s.freeContext k).sc = s.sc := rfl
@[simp] theorem freeContext_store (s : State) (k : CtxNo) : (s.freeContext k).store = s.store := rfl
@[simp] theorem freeContext_ports (s : State) (k : CtxNo) : (s.freeContext k).ports = s.ports := rfl
@[simp] theorem freeContext_due (s : State) (k : CtxNo) : (s.freeContext k).due = s.due := rfl
@[simp] theorem freeContext_freeUsed (s : State) (k : CtxNo) : (s.freeContext k).freeUsed = s.freeUsed := rfl
@[simp] theorem freeContext_pending (s : State) (k : CtxNo) : (s.freeContext k).pending = s.pending := rfl

@[simp] theorem enqueueProof_part (s : State) (c : Channel) : (s.enqueueProof c).part = s.part := rfl
@[simp] theorem enqueueProof_resetHeld (s : State) (c : Channel) : (s.enqueueProof c).resetHeld = s.resetHeld := rfl
@[simp] theorem enqueueProof_ft (s : State) (c : Channel) : (s.enqueueProof c).ft = s.ft := rfl
@[simp] theorem enqueueProof_bi (s : State) (c : Channel) : (s.enqueueProof c).bi = s.bi := rfl
@[simp] theorem enqueueProof_cm (s : State) (c : Channel) : (s.enqueueProof c).cm = s.cm := rfl
@[simp] theorem enqueueProof_cp (s : State) (c : Channel) :
    (s.enqueueProof c).cp =
      { s.cp with queue := s.cp.queue ++ [c] } := rfl
@[simp] theorem enqueueProof_cl (s : State) (c : Channel) : (s.enqueueProof c).cl = s.cl := rfl
@[simp] theorem enqueueProof_sn (s : State) (c : Channel) : (s.enqueueProof c).sn = s.sn := rfl
@[simp] theorem enqueueProof_du (s : State) (c : Channel) : (s.enqueueProof c).du = s.du := rfl
@[simp] theorem enqueueProof_sc (s : State) (c : Channel) : (s.enqueueProof c).sc = s.sc := rfl
@[simp] theorem enqueueProof_store (s : State) (c : Channel) : (s.enqueueProof c).store = s.store := rfl
@[simp] theorem enqueueProof_ports (s : State) (c : Channel) : (s.enqueueProof c).ports = s.ports := rfl
@[simp] theorem enqueueProof_due (s : State) (c : Channel) : (s.enqueueProof c).due = s.due := rfl
@[simp] theorem enqueueProof_freeUsed (s : State) (c : Channel) : (s.enqueueProof c).freeUsed = s.freeUsed := rfl
@[simp] theorem enqueueProof_pending (s : State) (c : Channel) : (s.enqueueProof c).pending = s.pending := rfl

@[simp] theorem dequeueProof_part (s : State) (c : Channel) : (s.dequeueProof c).part = s.part := rfl
@[simp] theorem dequeueProof_resetHeld (s : State) (c : Channel) : (s.dequeueProof c).resetHeld = s.resetHeld := rfl
@[simp] theorem dequeueProof_ft (s : State) (c : Channel) : (s.dequeueProof c).ft = s.ft := rfl
@[simp] theorem dequeueProof_bi (s : State) (c : Channel) : (s.dequeueProof c).bi = s.bi := rfl
@[simp] theorem dequeueProof_cm (s : State) (c : Channel) : (s.dequeueProof c).cm = s.cm := rfl
@[simp] theorem dequeueProof_cp (s : State) (c : Channel) :
    (s.dequeueProof c).cp =
      { s.cp with queue := s.cp.queue.filter (fun d => decide (d ≠ c)) } := rfl
@[simp] theorem dequeueProof_cl (s : State) (c : Channel) : (s.dequeueProof c).cl = s.cl := rfl
@[simp] theorem dequeueProof_sn (s : State) (c : Channel) : (s.dequeueProof c).sn = s.sn := rfl
@[simp] theorem dequeueProof_du (s : State) (c : Channel) : (s.dequeueProof c).du = s.du := rfl
@[simp] theorem dequeueProof_sc (s : State) (c : Channel) : (s.dequeueProof c).sc = s.sc := rfl
@[simp] theorem dequeueProof_store (s : State) (c : Channel) : (s.dequeueProof c).store = s.store := rfl
@[simp] theorem dequeueProof_ports (s : State) (c : Channel) : (s.dequeueProof c).ports = s.ports := rfl
@[simp] theorem dequeueProof_due (s : State) (c : Channel) : (s.dequeueProof c).due = s.due := rfl
@[simp] theorem dequeueProof_freeUsed (s : State) (c : Channel) : (s.dequeueProof c).freeUsed = s.freeUsed := rfl
@[simp] theorem dequeueProof_pending (s : State) (c : Channel) : (s.dequeueProof c).pending = s.pending := rfl

@[simp] theorem setSlot_part (s : State) (n : SlotNo) (e : SlotEntry) : (s.setSlot n e).part = s.part := rfl
@[simp] theorem setSlot_resetHeld (s : State) (n : SlotNo) (e : SlotEntry) :
    (s.setSlot n e).resetHeld =
      s.resetHeld := rfl
@[simp] theorem setSlot_ft (s : State) (n : SlotNo) (e : SlotEntry) : (s.setSlot n e).ft = s.ft := rfl
@[simp] theorem setSlot_bi (s : State) (n : SlotNo) (e : SlotEntry) : (s.setSlot n e).bi = s.bi := rfl
@[simp] theorem setSlot_cm (s : State) (n : SlotNo) (e : SlotEntry) : (s.setSlot n e).cm = s.cm := rfl
@[simp] theorem setSlot_cp (s : State) (n : SlotNo) (e : SlotEntry) : (s.setSlot n e).cp = s.cp := rfl
@[simp] theorem setSlot_cl (s : State) (n : SlotNo) (e : SlotEntry) : (s.setSlot n e).cl = s.cl := rfl
@[simp] theorem setSlot_sn (s : State) (n : SlotNo) (e : SlotEntry) :
    (s.setSlot n e).sn =
      { s.sn with slots := Assoc.put s.sn.slots n e } := rfl
@[simp] theorem setSlot_du (s : State) (n : SlotNo) (e : SlotEntry) : (s.setSlot n e).du = s.du := rfl
@[simp] theorem setSlot_sc (s : State) (n : SlotNo) (e : SlotEntry) : (s.setSlot n e).sc = s.sc := rfl
@[simp] theorem setSlot_store (s : State) (n : SlotNo) (e : SlotEntry) : (s.setSlot n e).store = s.store := rfl
@[simp] theorem setSlot_ports (s : State) (n : SlotNo) (e : SlotEntry) : (s.setSlot n e).ports = s.ports := rfl
@[simp] theorem setSlot_due (s : State) (n : SlotNo) (e : SlotEntry) : (s.setSlot n e).due = s.due := rfl
@[simp] theorem setSlot_freeUsed (s : State) (n : SlotNo) (e : SlotEntry) :
    (s.setSlot n e).freeUsed =
      s.freeUsed := rfl
@[simp] theorem setSlot_pending (s : State) (n : SlotNo) (e : SlotEntry) : (s.setSlot n e).pending = s.pending := rfl

@[simp] theorem modSlot_part (s : State) (n : SlotNo) (f : SlotEntry → SlotEntry) :
    (s.modSlot n f).part =
      s.part := rfl
@[simp] theorem modSlot_resetHeld (s : State) (n : SlotNo) (f : SlotEntry → SlotEntry) :
    (s.modSlot n f).resetHeld =
      s.resetHeld := rfl
@[simp] theorem modSlot_ft (s : State) (n : SlotNo) (f : SlotEntry → SlotEntry) : (s.modSlot n f).ft = s.ft := rfl
@[simp] theorem modSlot_bi (s : State) (n : SlotNo) (f : SlotEntry → SlotEntry) : (s.modSlot n f).bi = s.bi := rfl
@[simp] theorem modSlot_cm (s : State) (n : SlotNo) (f : SlotEntry → SlotEntry) : (s.modSlot n f).cm = s.cm := rfl
@[simp] theorem modSlot_cp (s : State) (n : SlotNo) (f : SlotEntry → SlotEntry) : (s.modSlot n f).cp = s.cp := rfl
@[simp] theorem modSlot_cl (s : State) (n : SlotNo) (f : SlotEntry → SlotEntry) : (s.modSlot n f).cl = s.cl := rfl
@[simp] theorem modSlot_sn (s : State) (n : SlotNo) (f : SlotEntry → SlotEntry) :
    (s.modSlot n f).sn =
      { s.sn with slots := Assoc.put s.sn.slots n (f (s.slot n)) } := rfl
@[simp] theorem modSlot_du (s : State) (n : SlotNo) (f : SlotEntry → SlotEntry) : (s.modSlot n f).du = s.du := rfl
@[simp] theorem modSlot_sc (s : State) (n : SlotNo) (f : SlotEntry → SlotEntry) : (s.modSlot n f).sc = s.sc := rfl
@[simp] theorem modSlot_store (s : State) (n : SlotNo) (f : SlotEntry → SlotEntry) :
    (s.modSlot n f).store =
      s.store := rfl
@[simp] theorem modSlot_ports (s : State) (n : SlotNo) (f : SlotEntry → SlotEntry) :
    (s.modSlot n f).ports =
      s.ports := rfl
@[simp] theorem modSlot_due (s : State) (n : SlotNo) (f : SlotEntry → SlotEntry) : (s.modSlot n f).due = s.due := rfl
@[simp] theorem modSlot_freeUsed (s : State) (n : SlotNo) (f : SlotEntry → SlotEntry) :
    (s.modSlot n f).freeUsed =
      s.freeUsed := rfl
@[simp] theorem modSlot_pending (s : State) (n : SlotNo) (f : SlotEntry → SlotEntry) :
    (s.modSlot n f).pending =
      s.pending := rfl

@[simp] theorem freeSlot_part (s : State) (n : SlotNo) : (s.freeSlot n).part = s.part := rfl
@[simp] theorem freeSlot_resetHeld (s : State) (n : SlotNo) : (s.freeSlot n).resetHeld = s.resetHeld := rfl
@[simp] theorem freeSlot_ft (s : State) (n : SlotNo) : (s.freeSlot n).ft = s.ft := rfl
@[simp] theorem freeSlot_bi (s : State) (n : SlotNo) : (s.freeSlot n).bi = s.bi := rfl
@[simp] theorem freeSlot_cm (s : State) (n : SlotNo) : (s.freeSlot n).cm = s.cm := rfl
@[simp] theorem freeSlot_cp (s : State) (n : SlotNo) : (s.freeSlot n).cp = s.cp := rfl
@[simp] theorem freeSlot_cl (s : State) (n : SlotNo) : (s.freeSlot n).cl = s.cl := rfl
@[simp] theorem freeSlot_sn (s : State) (n : SlotNo) :
    (s.freeSlot n).sn =
      { s.sn with slots := Assoc.put s.sn.slots n (s.slot n).release } := rfl
@[simp] theorem freeSlot_du (s : State) (n : SlotNo) : (s.freeSlot n).du = s.du := rfl
@[simp] theorem freeSlot_sc (s : State) (n : SlotNo) : (s.freeSlot n).sc = s.sc := rfl
@[simp] theorem freeSlot_store (s : State) (n : SlotNo) : (s.freeSlot n).store = s.store := rfl
@[simp] theorem freeSlot_ports (s : State) (n : SlotNo) : (s.freeSlot n).ports = s.ports := rfl
@[simp] theorem freeSlot_due (s : State) (n : SlotNo) : (s.freeSlot n).due = s.due := rfl
@[simp] theorem freeSlot_freeUsed (s : State) (n : SlotNo) : (s.freeSlot n).freeUsed = s.freeUsed := rfl
@[simp] theorem freeSlot_pending (s : State) (n : SlotNo) : (s.freeSlot n).pending = s.pending := rfl

@[simp] theorem barSlot_part (s : State) (n : SlotNo) : (s.barSlot n).part = s.part := rfl
@[simp] theorem barSlot_resetHeld (s : State) (n : SlotNo) : (s.barSlot n).resetHeld = s.resetHeld := rfl
@[simp] theorem barSlot_ft (s : State) (n : SlotNo) : (s.barSlot n).ft = s.ft := rfl
@[simp] theorem barSlot_bi (s : State) (n : SlotNo) : (s.barSlot n).bi = s.bi := rfl
@[simp] theorem barSlot_cm (s : State) (n : SlotNo) : (s.barSlot n).cm = s.cm := rfl
@[simp] theorem barSlot_cp (s : State) (n : SlotNo) : (s.barSlot n).cp = s.cp := rfl
@[simp] theorem barSlot_cl (s : State) (n : SlotNo) : (s.barSlot n).cl = s.cl := rfl
@[simp] theorem barSlot_sn (s : State) (n : SlotNo) :
    (s.barSlot n).sn =
      { s.sn with slots := Assoc.put s.sn.slots n ((s.slot n).bar (2 * s.sc.params.orphanFrames)) } := rfl
@[simp] theorem barSlot_du (s : State) (n : SlotNo) : (s.barSlot n).du = s.du := rfl
@[simp] theorem barSlot_sc (s : State) (n : SlotNo) : (s.barSlot n).sc = s.sc := rfl
@[simp] theorem barSlot_store (s : State) (n : SlotNo) : (s.barSlot n).store = s.store := rfl
@[simp] theorem barSlot_ports (s : State) (n : SlotNo) : (s.barSlot n).ports = s.ports := rfl
@[simp] theorem barSlot_due (s : State) (n : SlotNo) : (s.barSlot n).due = s.due := rfl
@[simp] theorem barSlot_freeUsed (s : State) (n : SlotNo) : (s.barSlot n).freeUsed = s.freeUsed := rfl
@[simp] theorem barSlot_pending (s : State) (n : SlotNo) : (s.barSlot n).pending = s.pending := rfl

@[simp] theorem appendNotice_part (s : State) (k : NoticeKind) (c : Channel) :
    (s.appendNotice k c).part =
      s.part := rfl
@[simp] theorem appendNotice_resetHeld (s : State) (k : NoticeKind) (c : Channel) :
    (s.appendNotice k c).resetHeld =
      s.resetHeld := rfl
@[simp] theorem appendNotice_ft (s : State) (k : NoticeKind) (c : Channel) : (s.appendNotice k c).ft = s.ft := rfl
@[simp] theorem appendNotice_bi (s : State) (k : NoticeKind) (c : Channel) : (s.appendNotice k c).bi = s.bi := rfl
@[simp] theorem appendNotice_cm (s : State) (k : NoticeKind) (c : Channel) : (s.appendNotice k c).cm = s.cm := rfl
@[simp] theorem appendNotice_cp (s : State) (k : NoticeKind) (c : Channel) : (s.appendNotice k c).cp = s.cp := rfl
@[simp] theorem appendNotice_cl (s : State) (k : NoticeKind) (c : Channel) : (s.appendNotice k c).cl = s.cl := rfl
@[simp] theorem appendNotice_sn (s : State) (k : NoticeKind) (c : Channel) :
    (s.appendNotice k c).sn =
      { s.sn with queue := s.sn.queue ++ [⟨k, c⟩] } := rfl
@[simp] theorem appendNotice_du (s : State) (k : NoticeKind) (c : Channel) : (s.appendNotice k c).du = s.du := rfl
@[simp] theorem appendNotice_sc (s : State) (k : NoticeKind) (c : Channel) : (s.appendNotice k c).sc = s.sc := rfl
@[simp] theorem appendNotice_store (s : State) (k : NoticeKind) (c : Channel) :
    (s.appendNotice k c).store =
      s.store := rfl
@[simp] theorem appendNotice_ports (s : State) (k : NoticeKind) (c : Channel) :
    (s.appendNotice k c).ports =
      s.ports := rfl
@[simp] theorem appendNotice_due (s : State) (k : NoticeKind) (c : Channel) : (s.appendNotice k c).due = s.due := rfl
@[simp] theorem appendNotice_freeUsed (s : State) (k : NoticeKind) (c : Channel) :
    (s.appendNotice k c).freeUsed =
      s.freeUsed := rfl
@[simp] theorem appendNotice_pending (s : State) (k : NoticeKind) (c : Channel) :
    (s.appendNotice k c).pending =
      s.pending := rfl

@[simp] theorem removeQueued_part (s : State) (k : NoticeKind) (c : Channel) :
    (s.removeQueued k c).part =
      s.part := rfl
@[simp] theorem removeQueued_resetHeld (s : State) (k : NoticeKind) (c : Channel) :
    (s.removeQueued k c).resetHeld =
      s.resetHeld := rfl
@[simp] theorem removeQueued_ft (s : State) (k : NoticeKind) (c : Channel) : (s.removeQueued k c).ft = s.ft := rfl
@[simp] theorem removeQueued_bi (s : State) (k : NoticeKind) (c : Channel) : (s.removeQueued k c).bi = s.bi := rfl
@[simp] theorem removeQueued_cm (s : State) (k : NoticeKind) (c : Channel) : (s.removeQueued k c).cm = s.cm := rfl
@[simp] theorem removeQueued_cp (s : State) (k : NoticeKind) (c : Channel) : (s.removeQueued k c).cp = s.cp := rfl
@[simp] theorem removeQueued_cl (s : State) (k : NoticeKind) (c : Channel) : (s.removeQueued k c).cl = s.cl := rfl
@[simp] theorem removeQueued_sn (s : State) (k : NoticeKind) (c : Channel) :
    (s.removeQueued k c).sn =
      { s.sn with queue := s.sn.queue.filter (fun r => decide (r ≠ ⟨k, c⟩)) } := rfl
@[simp] theorem removeQueued_du (s : State) (k : NoticeKind) (c : Channel) : (s.removeQueued k c).du = s.du := rfl
@[simp] theorem removeQueued_sc (s : State) (k : NoticeKind) (c : Channel) : (s.removeQueued k c).sc = s.sc := rfl
@[simp] theorem removeQueued_store (s : State) (k : NoticeKind) (c : Channel) :
    (s.removeQueued k c).store =
      s.store := rfl
@[simp] theorem removeQueued_ports (s : State) (k : NoticeKind) (c : Channel) :
    (s.removeQueued k c).ports =
      s.ports := rfl
@[simp] theorem removeQueued_due (s : State) (k : NoticeKind) (c : Channel) : (s.removeQueued k c).due = s.due := rfl
@[simp] theorem removeQueued_freeUsed (s : State) (k : NoticeKind) (c : Channel) :
    (s.removeQueued k c).freeUsed =
      s.freeUsed := rfl
@[simp] theorem removeQueued_pending (s : State) (k : NoticeKind) (c : Channel) :
    (s.removeQueued k c).pending =
      s.pending := rfl

@[simp] theorem clearOutstanding_part (s : State) : (s.clearOutstanding).part = s.part := rfl
@[simp] theorem clearOutstanding_resetHeld (s : State) : (s.clearOutstanding).resetHeld = s.resetHeld := rfl
@[simp] theorem clearOutstanding_ft (s : State) : (s.clearOutstanding).ft = s.ft := rfl
@[simp] theorem clearOutstanding_bi (s : State) : (s.clearOutstanding).bi = s.bi := rfl
@[simp] theorem clearOutstanding_cm (s : State) : (s.clearOutstanding).cm = s.cm := rfl
@[simp] theorem clearOutstanding_cp (s : State) : (s.clearOutstanding).cp = s.cp := rfl
@[simp] theorem clearOutstanding_cl (s : State) : (s.clearOutstanding).cl = s.cl := rfl
@[simp] theorem clearOutstanding_sn (s : State) : (s.clearOutstanding).sn = { s.sn with outstanding := none } := rfl
@[simp] theorem clearOutstanding_du (s : State) : (s.clearOutstanding).du = s.du := rfl
@[simp] theorem clearOutstanding_sc (s : State) : (s.clearOutstanding).sc = s.sc := rfl
@[simp] theorem clearOutstanding_store (s : State) : (s.clearOutstanding).store = s.store := rfl
@[simp] theorem clearOutstanding_ports (s : State) : (s.clearOutstanding).ports = s.ports := rfl
@[simp] theorem clearOutstanding_due (s : State) : (s.clearOutstanding).due = s.due := rfl
@[simp] theorem clearOutstanding_freeUsed (s : State) : (s.clearOutstanding).freeUsed = s.freeUsed := rfl
@[simp] theorem clearOutstanding_pending (s : State) : (s.clearOutstanding).pending = s.pending := rfl

@[simp] theorem schedule_part (s : State) (c : Channel) (n : SlotNo) (g : Nat) :
    (s.schedule c n g).part =
      s.part := rfl
@[simp] theorem schedule_resetHeld (s : State) (c : Channel) (n : SlotNo) (g : Nat) :
    (s.schedule c n g).resetHeld =
      s.resetHeld := rfl
@[simp] theorem schedule_ft (s : State) (c : Channel) (n : SlotNo) (g : Nat) : (s.schedule c n g).ft = s.ft := rfl
@[simp] theorem schedule_bi (s : State) (c : Channel) (n : SlotNo) (g : Nat) : (s.schedule c n g).bi = s.bi := rfl
@[simp] theorem schedule_cm (s : State) (c : Channel) (n : SlotNo) (g : Nat) : (s.schedule c n g).cm = s.cm := rfl
@[simp] theorem schedule_cp (s : State) (c : Channel) (n : SlotNo) (g : Nat) : (s.schedule c n g).cp = s.cp := rfl
@[simp] theorem schedule_cl (s : State) (c : Channel) (n : SlotNo) (g : Nat) : (s.schedule c n g).cl = s.cl := rfl
@[simp] theorem schedule_sn (s : State) (c : Channel) (n : SlotNo) (g : Nat) :
    (s.schedule c n g).sn =
      { s.sn with schedules := Assoc.put s.sn.schedules c ⟨n, g⟩ } := rfl
@[simp] theorem schedule_du (s : State) (c : Channel) (n : SlotNo) (g : Nat) : (s.schedule c n g).du = s.du := rfl
@[simp] theorem schedule_sc (s : State) (c : Channel) (n : SlotNo) (g : Nat) : (s.schedule c n g).sc = s.sc := rfl
@[simp] theorem schedule_store (s : State) (c : Channel) (n : SlotNo) (g : Nat) :
    (s.schedule c n g).store =
      s.store := rfl
@[simp] theorem schedule_ports (s : State) (c : Channel) (n : SlotNo) (g : Nat) :
    (s.schedule c n g).ports =
      s.ports := rfl
@[simp] theorem schedule_due (s : State) (c : Channel) (n : SlotNo) (g : Nat) : (s.schedule c n g).due = s.due := rfl
@[simp] theorem schedule_freeUsed (s : State) (c : Channel) (n : SlotNo) (g : Nat) :
    (s.schedule c n g).freeUsed =
      s.freeUsed := rfl
@[simp] theorem schedule_pending (s : State) (c : Channel) (n : SlotNo) (g : Nat) :
    (s.schedule c n g).pending =
      s.pending := rfl

@[simp] theorem cancelSchedule_part (s : State) (c : Channel) : (s.cancelSchedule c).part = s.part := rfl
@[simp] theorem cancelSchedule_resetHeld (s : State) (c : Channel) :
    (s.cancelSchedule c).resetHeld =
      s.resetHeld := rfl
@[simp] theorem cancelSchedule_ft (s : State) (c : Channel) : (s.cancelSchedule c).ft = s.ft := rfl
@[simp] theorem cancelSchedule_bi (s : State) (c : Channel) : (s.cancelSchedule c).bi = s.bi := rfl
@[simp] theorem cancelSchedule_cm (s : State) (c : Channel) : (s.cancelSchedule c).cm = s.cm := rfl
@[simp] theorem cancelSchedule_cp (s : State) (c : Channel) : (s.cancelSchedule c).cp = s.cp := rfl
@[simp] theorem cancelSchedule_cl (s : State) (c : Channel) : (s.cancelSchedule c).cl = s.cl := rfl
@[simp] theorem cancelSchedule_sn (s : State) (c : Channel) :
    (s.cancelSchedule c).sn =
      { s.sn with schedules := Assoc.drop s.sn.schedules c } := rfl
@[simp] theorem cancelSchedule_du (s : State) (c : Channel) : (s.cancelSchedule c).du = s.du := rfl
@[simp] theorem cancelSchedule_sc (s : State) (c : Channel) : (s.cancelSchedule c).sc = s.sc := rfl
@[simp] theorem cancelSchedule_store (s : State) (c : Channel) : (s.cancelSchedule c).store = s.store := rfl
@[simp] theorem cancelSchedule_ports (s : State) (c : Channel) : (s.cancelSchedule c).ports = s.ports := rfl
@[simp] theorem cancelSchedule_due (s : State) (c : Channel) : (s.cancelSchedule c).due = s.due := rfl
@[simp] theorem cancelSchedule_freeUsed (s : State) (c : Channel) : (s.cancelSchedule c).freeUsed = s.freeUsed := rfl
@[simp] theorem cancelSchedule_pending (s : State) (c : Channel) : (s.cancelSchedule c).pending = s.pending := rfl

@[simp] theorem handCapture_part (s : State) (c : Channel) (x : Capture) : (s.handCapture c x).part = s.part := rfl
@[simp] theorem handCapture_resetHeld (s : State) (c : Channel) (x : Capture) :
    (s.handCapture c x).resetHeld =
      s.resetHeld := rfl
@[simp] theorem handCapture_ft (s : State) (c : Channel) (x : Capture) : (s.handCapture c x).ft = s.ft := rfl
@[simp] theorem handCapture_bi (s : State) (c : Channel) (x : Capture) : (s.handCapture c x).bi = s.bi := rfl
@[simp] theorem handCapture_cm (s : State) (c : Channel) (x : Capture) : (s.handCapture c x).cm = s.cm := rfl
@[simp] theorem handCapture_cp (s : State) (c : Channel) (x : Capture) : (s.handCapture c x).cp = s.cp := rfl
@[simp] theorem handCapture_cl (s : State) (c : Channel) (x : Capture) :
    (s.handCapture c x).cl =
      { s.cl with captures := Assoc.put s.cl.captures c x } := rfl
@[simp] theorem handCapture_sn (s : State) (c : Channel) (x : Capture) : (s.handCapture c x).sn = s.sn := rfl
@[simp] theorem handCapture_du (s : State) (c : Channel) (x : Capture) : (s.handCapture c x).du = s.du := rfl
@[simp] theorem handCapture_sc (s : State) (c : Channel) (x : Capture) : (s.handCapture c x).sc = s.sc := rfl
@[simp] theorem handCapture_store (s : State) (c : Channel) (x : Capture) : (s.handCapture c x).store = s.store := rfl
@[simp] theorem handCapture_ports (s : State) (c : Channel) (x : Capture) : (s.handCapture c x).ports = s.ports := rfl
@[simp] theorem handCapture_due (s : State) (c : Channel) (x : Capture) : (s.handCapture c x).due = s.due := rfl
@[simp] theorem handCapture_freeUsed (s : State) (c : Channel) (x : Capture) :
    (s.handCapture c x).freeUsed =
      s.freeUsed := rfl
@[simp] theorem handCapture_pending (s : State) (c : Channel) (x : Capture) :
    (s.handCapture c x).pending =
      s.pending := rfl

@[simp] theorem setRegister_part (s : State) (c : Channel) (x : FibreRegister) :
    (s.setRegister c x).part =
      s.part := rfl
@[simp] theorem setRegister_resetHeld (s : State) (c : Channel) (x : FibreRegister) :
    (s.setRegister c x).resetHeld =
      s.resetHeld := rfl
@[simp] theorem setRegister_ft (s : State) (c : Channel) (x : FibreRegister) : (s.setRegister c x).ft = s.ft := rfl
@[simp] theorem setRegister_bi (s : State) (c : Channel) (x : FibreRegister) :
    (s.setRegister c x).bi =
      { s.bi with registers := Assoc.put s.bi.registers c x } := rfl
@[simp] theorem setRegister_cm (s : State) (c : Channel) (x : FibreRegister) : (s.setRegister c x).cm = s.cm := rfl
@[simp] theorem setRegister_cp (s : State) (c : Channel) (x : FibreRegister) : (s.setRegister c x).cp = s.cp := rfl
@[simp] theorem setRegister_cl (s : State) (c : Channel) (x : FibreRegister) : (s.setRegister c x).cl = s.cl := rfl
@[simp] theorem setRegister_sn (s : State) (c : Channel) (x : FibreRegister) : (s.setRegister c x).sn = s.sn := rfl
@[simp] theorem setRegister_du (s : State) (c : Channel) (x : FibreRegister) : (s.setRegister c x).du = s.du := rfl
@[simp] theorem setRegister_sc (s : State) (c : Channel) (x : FibreRegister) : (s.setRegister c x).sc = s.sc := rfl
@[simp] theorem setRegister_store (s : State) (c : Channel) (x : FibreRegister) :
    (s.setRegister c x).store =
      s.store := rfl
@[simp] theorem setRegister_ports (s : State) (c : Channel) (x : FibreRegister) :
    (s.setRegister c x).ports =
      s.ports := rfl
@[simp] theorem setRegister_due (s : State) (c : Channel) (x : FibreRegister) : (s.setRegister c x).due = s.due := rfl
@[simp] theorem setRegister_freeUsed (s : State) (c : Channel) (x : FibreRegister) :
    (s.setRegister c x).freeUsed =
      s.freeUsed := rfl
@[simp] theorem setRegister_pending (s : State) (c : Channel) (x : FibreRegister) :
    (s.setRegister c x).pending =
      s.pending := rfl

@[simp] theorem emptyPairing_part (s : State) : (s.emptyPairing).part = s.part := rfl
@[simp] theorem emptyPairing_resetHeld (s : State) : (s.emptyPairing).resetHeld = s.resetHeld := rfl
@[simp] theorem emptyPairing_ft (s : State) : (s.emptyPairing).ft = s.ft := rfl
@[simp] theorem emptyPairing_bi (s : State) : (s.emptyPairing).bi = { s.bi with pairing := none } := rfl
@[simp] theorem emptyPairing_cm (s : State) : (s.emptyPairing).cm = s.cm := rfl
@[simp] theorem emptyPairing_cp (s : State) : (s.emptyPairing).cp = s.cp := rfl
@[simp] theorem emptyPairing_cl (s : State) : (s.emptyPairing).cl = s.cl := rfl
@[simp] theorem emptyPairing_sn (s : State) : (s.emptyPairing).sn = s.sn := rfl
@[simp] theorem emptyPairing_du (s : State) : (s.emptyPairing).du = s.du := rfl
@[simp] theorem emptyPairing_sc (s : State) : (s.emptyPairing).sc = s.sc := rfl
@[simp] theorem emptyPairing_store (s : State) : (s.emptyPairing).store = s.store := rfl
@[simp] theorem emptyPairing_ports (s : State) : (s.emptyPairing).ports = s.ports := rfl
@[simp] theorem emptyPairing_due (s : State) : (s.emptyPairing).due = s.due := rfl
@[simp] theorem emptyPairing_freeUsed (s : State) : (s.emptyPairing).freeUsed = s.freeUsed := rfl
@[simp] theorem emptyPairing_pending (s : State) : (s.emptyPairing).pending = s.pending := rfl

@[simp] theorem modDu_part (s : State) (f : DirectiveUnit → DirectiveUnit) : (s.modDu f).part = s.part := rfl
@[simp] theorem modDu_resetHeld (s : State) (f : DirectiveUnit → DirectiveUnit) :
    (s.modDu f).resetHeld =
      s.resetHeld := rfl
@[simp] theorem modDu_ft (s : State) (f : DirectiveUnit → DirectiveUnit) : (s.modDu f).ft = s.ft := rfl
@[simp] theorem modDu_bi (s : State) (f : DirectiveUnit → DirectiveUnit) : (s.modDu f).bi = s.bi := rfl
@[simp] theorem modDu_cm (s : State) (f : DirectiveUnit → DirectiveUnit) : (s.modDu f).cm = s.cm := rfl
@[simp] theorem modDu_cp (s : State) (f : DirectiveUnit → DirectiveUnit) : (s.modDu f).cp = s.cp := rfl
@[simp] theorem modDu_cl (s : State) (f : DirectiveUnit → DirectiveUnit) : (s.modDu f).cl = s.cl := rfl
@[simp] theorem modDu_sn (s : State) (f : DirectiveUnit → DirectiveUnit) : (s.modDu f).sn = s.sn := rfl
@[simp] theorem modDu_du (s : State) (f : DirectiveUnit → DirectiveUnit) : (s.modDu f).du = f s.du := rfl
@[simp] theorem modDu_sc (s : State) (f : DirectiveUnit → DirectiveUnit) : (s.modDu f).sc = s.sc := rfl
@[simp] theorem modDu_store (s : State) (f : DirectiveUnit → DirectiveUnit) : (s.modDu f).store = s.store := rfl
@[simp] theorem modDu_ports (s : State) (f : DirectiveUnit → DirectiveUnit) : (s.modDu f).ports = s.ports := rfl
@[simp] theorem modDu_due (s : State) (f : DirectiveUnit → DirectiveUnit) : (s.modDu f).due = s.due := rfl
@[simp] theorem modDu_freeUsed (s : State) (f : DirectiveUnit → DirectiveUnit) :
    (s.modDu f).freeUsed =
      s.freeUsed := rfl
@[simp] theorem modDu_pending (s : State) (f : DirectiveUnit → DirectiveUnit) : (s.modDu f).pending = s.pending := rfl

@[simp] theorem setFlight_part (s : State) (f : Option Flight) : (s.setFlight f).part = s.part := rfl
@[simp] theorem setFlight_resetHeld (s : State) (f : Option Flight) : (s.setFlight f).resetHeld = s.resetHeld := rfl
@[simp] theorem setFlight_ft (s : State) (f : Option Flight) : (s.setFlight f).ft = s.ft := rfl
@[simp] theorem setFlight_bi (s : State) (f : Option Flight) : (s.setFlight f).bi = s.bi := rfl
@[simp] theorem setFlight_cm (s : State) (f : Option Flight) : (s.setFlight f).cm = s.cm := rfl
@[simp] theorem setFlight_cp (s : State) (f : Option Flight) : (s.setFlight f).cp = s.cp := rfl
@[simp] theorem setFlight_cl (s : State) (f : Option Flight) : (s.setFlight f).cl = s.cl := rfl
@[simp] theorem setFlight_sn (s : State) (f : Option Flight) : (s.setFlight f).sn = s.sn := rfl
@[simp] theorem setFlight_du (s : State) (f : Option Flight) : (s.setFlight f).du = s.du := rfl
@[simp] theorem setFlight_sc (s : State) (f : Option Flight) : (s.setFlight f).sc = { s.sc with flight := f } := rfl
@[simp] theorem setFlight_store (s : State) (f : Option Flight) : (s.setFlight f).store = s.store := rfl
@[simp] theorem setFlight_ports (s : State) (f : Option Flight) : (s.setFlight f).ports = s.ports := rfl
@[simp] theorem setFlight_due (s : State) (f : Option Flight) : (s.setFlight f).due = s.due := rfl
@[simp] theorem setFlight_freeUsed (s : State) (f : Option Flight) : (s.setFlight f).freeUsed = s.freeUsed := rfl
@[simp] theorem setFlight_pending (s : State) (f : Option Flight) : (s.setFlight f).pending = s.pending := rfl

@[simp] theorem setFault_part (s : State) (b : Bool) : (s.setFault b).part = s.part := rfl
@[simp] theorem setFault_resetHeld (s : State) (b : Bool) : (s.setFault b).resetHeld = s.resetHeld := rfl
@[simp] theorem setFault_ft (s : State) (b : Bool) : (s.setFault b).ft = s.ft := rfl
@[simp] theorem setFault_bi (s : State) (b : Bool) : (s.setFault b).bi = s.bi := rfl
@[simp] theorem setFault_cm (s : State) (b : Bool) : (s.setFault b).cm = s.cm := rfl
@[simp] theorem setFault_cp (s : State) (b : Bool) : (s.setFault b).cp = s.cp := rfl
@[simp] theorem setFault_cl (s : State) (b : Bool) : (s.setFault b).cl = s.cl := rfl
@[simp] theorem setFault_sn (s : State) (b : Bool) : (s.setFault b).sn = s.sn := rfl
@[simp] theorem setFault_du (s : State) (b : Bool) : (s.setFault b).du = s.du := rfl
@[simp] theorem setFault_sc (s : State) (b : Bool) : (s.setFault b).sc = { s.sc with fault := b } := rfl
@[simp] theorem setFault_store (s : State) (b : Bool) : (s.setFault b).store = s.store := rfl
@[simp] theorem setFault_ports (s : State) (b : Bool) : (s.setFault b).ports = s.ports := rfl
@[simp] theorem setFault_due (s : State) (b : Bool) : (s.setFault b).due = s.due := rfl
@[simp] theorem setFault_freeUsed (s : State) (b : Bool) : (s.setFault b).freeUsed = s.freeUsed := rfl
@[simp] theorem setFault_pending (s : State) (b : Bool) : (s.setFault b).pending = s.pending := rfl

@[simp] theorem setLoader_part (s : State) (x : LoadStage) : (s.setLoader x).part = s.part := rfl
@[simp] theorem setLoader_resetHeld (s : State) (x : LoadStage) : (s.setLoader x).resetHeld = s.resetHeld := rfl
@[simp] theorem setLoader_ft (s : State) (x : LoadStage) : (s.setLoader x).ft = s.ft := rfl
@[simp] theorem setLoader_bi (s : State) (x : LoadStage) : (s.setLoader x).bi = s.bi := rfl
@[simp] theorem setLoader_cm (s : State) (x : LoadStage) : (s.setLoader x).cm = s.cm := rfl
@[simp] theorem setLoader_cp (s : State) (x : LoadStage) : (s.setLoader x).cp = s.cp := rfl
@[simp] theorem setLoader_cl (s : State) (x : LoadStage) : (s.setLoader x).cl = s.cl := rfl
@[simp] theorem setLoader_sn (s : State) (x : LoadStage) : (s.setLoader x).sn = s.sn := rfl
@[simp] theorem setLoader_du (s : State) (x : LoadStage) : (s.setLoader x).du = s.du := rfl
@[simp] theorem setLoader_sc (s : State) (x : LoadStage) : (s.setLoader x).sc = { s.sc with loader := x } := rfl
@[simp] theorem setLoader_store (s : State) (x : LoadStage) : (s.setLoader x).store = s.store := rfl
@[simp] theorem setLoader_ports (s : State) (x : LoadStage) : (s.setLoader x).ports = s.ports := rfl
@[simp] theorem setLoader_due (s : State) (x : LoadStage) : (s.setLoader x).due = s.due := rfl
@[simp] theorem setLoader_freeUsed (s : State) (x : LoadStage) : (s.setLoader x).freeUsed = s.freeUsed := rfl
@[simp] theorem setLoader_pending (s : State) (x : LoadStage) : (s.setLoader x).pending = s.pending := rfl

@[simp] theorem carryWrite_part (s : State) (m : Master) (a : Addr) (w : BusWord) :
    (s.carryWrite m a w).part =
      s.part := rfl
@[simp] theorem carryWrite_resetHeld (s : State) (m : Master) (a : Addr) (w : BusWord) :
    (s.carryWrite m a w).resetHeld =
      s.resetHeld := rfl
@[simp] theorem carryWrite_ft (s : State) (m : Master) (a : Addr) (w : BusWord) :
    (s.carryWrite m a w).ft =
      s.ft := rfl
@[simp] theorem carryWrite_bi (s : State) (m : Master) (a : Addr) (w : BusWord) :
    (s.carryWrite m a w).bi =
      s.bi := rfl
@[simp] theorem carryWrite_cm (s : State) (m : Master) (a : Addr) (w : BusWord) :
    (s.carryWrite m a w).cm =
      s.cm := rfl
@[simp] theorem carryWrite_cp (s : State) (m : Master) (a : Addr) (w : BusWord) :
    (s.carryWrite m a w).cp =
      s.cp := rfl
@[simp] theorem carryWrite_cl (s : State) (m : Master) (a : Addr) (w : BusWord) :
    (s.carryWrite m a w).cl =
      s.cl := rfl
@[simp] theorem carryWrite_sn (s : State) (m : Master) (a : Addr) (w : BusWord) :
    (s.carryWrite m a w).sn =
      s.sn := rfl
@[simp] theorem carryWrite_du (s : State) (m : Master) (a : Addr) (w : BusWord) :
    (s.carryWrite m a w).du =
      s.du := rfl
@[simp] theorem carryWrite_sc (s : State) (m : Master) (a : Addr) (w : BusWord) :
    (s.carryWrite m a w).sc =
      s.sc := rfl
@[simp] theorem carryWrite_store (s : State) (m : Master) (a : Addr) (w : BusWord) :
    (s.carryWrite m a w).store =
      s.store := rfl
@[simp] theorem carryWrite_ports (s : State) (m : Master) (a : Addr) (w : BusWord) :
    (s.carryWrite m a w).ports =
      { s.ports with storeSide := some (.write m a w) } := rfl
@[simp] theorem carryWrite_due (s : State) (m : Master) (a : Addr) (w : BusWord) :
    (s.carryWrite m a w).due =
      s.due := rfl
@[simp] theorem carryWrite_freeUsed (s : State) (m : Master) (a : Addr) (w : BusWord) :
    (s.carryWrite m a w).freeUsed =
      s.freeUsed := rfl
@[simp] theorem carryWrite_pending (s : State) (m : Master) (a : Addr) (w : BusWord) :
    (s.carryWrite m a w).pending =
      s.pending := rfl

@[simp] theorem carryRead_part (s : State) (m : Master) (a : Addr) (w : BusWord) :
    (s.carryRead m a w).part =
      s.part := rfl
@[simp] theorem carryRead_resetHeld (s : State) (m : Master) (a : Addr) (w : BusWord) :
    (s.carryRead m a w).resetHeld =
      s.resetHeld := rfl
@[simp] theorem carryRead_ft (s : State) (m : Master) (a : Addr) (w : BusWord) : (s.carryRead m a w).ft = s.ft := rfl
@[simp] theorem carryRead_bi (s : State) (m : Master) (a : Addr) (w : BusWord) : (s.carryRead m a w).bi = s.bi := rfl
@[simp] theorem carryRead_cm (s : State) (m : Master) (a : Addr) (w : BusWord) : (s.carryRead m a w).cm = s.cm := rfl
@[simp] theorem carryRead_cp (s : State) (m : Master) (a : Addr) (w : BusWord) : (s.carryRead m a w).cp = s.cp := rfl
@[simp] theorem carryRead_cl (s : State) (m : Master) (a : Addr) (w : BusWord) : (s.carryRead m a w).cl = s.cl := rfl
@[simp] theorem carryRead_sn (s : State) (m : Master) (a : Addr) (w : BusWord) : (s.carryRead m a w).sn = s.sn := rfl
@[simp] theorem carryRead_du (s : State) (m : Master) (a : Addr) (w : BusWord) : (s.carryRead m a w).du = s.du := rfl
@[simp] theorem carryRead_sc (s : State) (m : Master) (a : Addr) (w : BusWord) : (s.carryRead m a w).sc = s.sc := rfl
@[simp] theorem carryRead_store (s : State) (m : Master) (a : Addr) (w : BusWord) :
    (s.carryRead m a w).store =
      s.store := rfl
@[simp] theorem carryRead_ports (s : State) (m : Master) (a : Addr) (w : BusWord) :
    (s.carryRead m a w).ports =
      { s.ports with storeSide := some (.read m a), returned := some w } := rfl
@[simp] theorem carryRead_due (s : State) (m : Master) (a : Addr) (w : BusWord) :
    (s.carryRead m a w).due =
      s.due := rfl
@[simp] theorem carryRead_freeUsed (s : State) (m : Master) (a : Addr) (w : BusWord) :
    (s.carryRead m a w).freeUsed =
      s.freeUsed := rfl
@[simp] theorem carryRead_pending (s : State) (m : Master) (a : Addr) (w : BusWord) :
    (s.carryRead m a w).pending =
      s.pending := rfl

@[simp] theorem timerAt_part (s : State) (n : Nat) : (s.timerAt n).part = s.part := rfl
@[simp] theorem timerAt_resetHeld (s : State) (n : Nat) : (s.timerAt n).resetHeld = s.resetHeld := rfl
@[simp] theorem timerAt_ft (s : State) (n : Nat) : (s.timerAt n).ft = { s.ft with timer := max s.ft.timer n } := rfl
@[simp] theorem timerAt_bi (s : State) (n : Nat) : (s.timerAt n).bi = s.bi := rfl
@[simp] theorem timerAt_cm (s : State) (n : Nat) : (s.timerAt n).cm = s.cm := rfl
@[simp] theorem timerAt_cp (s : State) (n : Nat) : (s.timerAt n).cp = s.cp := rfl
@[simp] theorem timerAt_cl (s : State) (n : Nat) : (s.timerAt n).cl = s.cl := rfl
@[simp] theorem timerAt_sn (s : State) (n : Nat) : (s.timerAt n).sn = s.sn := rfl
@[simp] theorem timerAt_du (s : State) (n : Nat) : (s.timerAt n).du = s.du := rfl
@[simp] theorem timerAt_sc (s : State) (n : Nat) : (s.timerAt n).sc = s.sc := rfl
@[simp] theorem timerAt_store (s : State) (n : Nat) : (s.timerAt n).store = s.store := rfl
@[simp] theorem timerAt_ports (s : State) (n : Nat) : (s.timerAt n).ports = s.ports := rfl
@[simp] theorem timerAt_due (s : State) (n : Nat) : (s.timerAt n).due = s.due := rfl
@[simp] theorem timerAt_freeUsed (s : State) (n : Nat) : (s.timerAt n).freeUsed = s.freeUsed := rfl
@[simp] theorem timerAt_pending (s : State) (n : Nat) : (s.timerAt n).pending = s.pending := rfl

@[simp] theorem tick_part (s : State) : (s.tick).part = s.part := rfl
@[simp] theorem tick_resetHeld (s : State) : (s.tick).resetHeld = s.resetHeld := rfl
@[simp] theorem tick_ft (s : State) :
    (s.tick).ft =
      { s.ft with frameNumber := s.ft.frameNumber + 1, timer := 0, boundarySeen := true } := rfl
@[simp] theorem tick_bi (s : State) : (s.tick).bi = s.bi := rfl
@[simp] theorem tick_cm (s : State) : (s.tick).cm = s.cm := rfl
@[simp] theorem tick_cp (s : State) : (s.tick).cp = s.cp := rfl
@[simp] theorem tick_cl (s : State) : (s.tick).cl = s.cl := rfl
@[simp] theorem tick_sn (s : State) : (s.tick).sn = s.sn := rfl
@[simp] theorem tick_du (s : State) : (s.tick).du = s.du := rfl
@[simp] theorem tick_sc (s : State) : (s.tick).sc = s.sc := rfl
@[simp] theorem tick_store (s : State) : (s.tick).store = s.store := rfl
@[simp] theorem tick_ports (s : State) : (s.tick).ports = s.ports := rfl
@[simp] theorem tick_due (s : State) : (s.tick).due = s.due := rfl
@[simp] theorem tick_freeUsed (s : State) : (s.tick).freeUsed = s.freeUsed := rfl
@[simp] theorem tick_pending (s : State) : (s.tick).pending = s.pending := rfl

@[simp] theorem goDark_part (s : State) : (s.goDark).part = s.part := rfl
@[simp] theorem goDark_resetHeld (s : State) : (s.goDark).resetHeld = s.resetHeld := rfl
@[simp] theorem goDark_ft (s : State) : (s.goDark).ft = s.ft := rfl
@[simp] theorem goDark_bi (s : State) : (s.goDark).bi = s.bi := rfl
@[simp] theorem goDark_cm (s : State) : (s.goDark).cm = s.cm := rfl
@[simp] theorem goDark_cp (s : State) : (s.goDark).cp = s.cp := rfl
@[simp] theorem goDark_cl (s : State) :
    (s.goDark).cl =
      { s.cl with link := .dark, lossCount := 0, huntCount := 0, lastNumber := none } := rfl
@[simp] theorem goDark_sn (s : State) : (s.goDark).sn = s.sn := rfl
@[simp] theorem goDark_du (s : State) : (s.goDark).du = s.du := rfl
@[simp] theorem goDark_sc (s : State) : (s.goDark).sc = s.sc := rfl
@[simp] theorem goDark_store (s : State) : (s.goDark).store = s.store := rfl
@[simp] theorem goDark_ports (s : State) : (s.goDark).ports = s.ports := rfl
@[simp] theorem goDark_due (s : State) : (s.goDark).due = s.due := rfl
@[simp] theorem goDark_freeUsed (s : State) : (s.goDark).freeUsed = s.freeUsed := rfl
@[simp] theorem goDark_pending (s : State) : (s.goDark).pending = s.pending := rfl

/-! ## Raising an event -/

@[simp] theorem raise_part (s : State) (k : EventKind) (c : Channel) : (s.raise k c).part = s.part := by
  unfold raise; split <;> rfl
@[simp] theorem raise_resetHeld (s : State) (k : EventKind) (c : Channel) : (s.raise k c).resetHeld = s.resetHeld := by
  unfold raise; split <;> rfl
@[simp] theorem raise_ft (s : State) (k : EventKind) (c : Channel) : (s.raise k c).ft = s.ft := by
  unfold raise; split <;> rfl
@[simp] theorem raise_bi (s : State) (k : EventKind) (c : Channel) : (s.raise k c).bi = s.bi := by
  unfold raise; split <;> rfl
@[simp] theorem raise_cm (s : State) (k : EventKind) (c : Channel) : (s.raise k c).cm = s.cm := by
  unfold raise; split <;> rfl
@[simp] theorem raise_cp (s : State) (k : EventKind) (c : Channel) : (s.raise k c).cp = s.cp := by
  unfold raise; split <;> rfl
@[simp] theorem raise_cl (s : State) (k : EventKind) (c : Channel) : (s.raise k c).cl = s.cl := by
  unfold raise; split <;> rfl
@[simp] theorem raise_sn (s : State) (k : EventKind) (c : Channel) : (s.raise k c).sn = s.sn := by
  unfold raise; split <;> rfl
@[simp] theorem raise_sc (s : State) (k : EventKind) (c : Channel) : (s.raise k c).sc = s.sc := by
  unfold raise; split <;> rfl
@[simp] theorem raise_store (s : State) (k : EventKind) (c : Channel) : (s.raise k c).store = s.store := by
  unfold raise; split <;> rfl
@[simp] theorem raise_ports (s : State) (k : EventKind) (c : Channel) : (s.raise k c).ports = s.ports := by
  unfold raise; split <;> rfl
@[simp] theorem raise_due (s : State) (k : EventKind) (c : Channel) : (s.raise k c).due = s.due := by
  unfold raise; split <;> rfl
@[simp] theorem raise_freeUsed (s : State) (k : EventKind) (c : Channel) : (s.raise k c).freeUsed = s.freeUsed := by
  unfold raise; split <;> rfl
@[simp] theorem raise_pending (s : State) (k : EventKind) (c : Channel) : (s.raise k c).pending = s.pending := by
  unfold raise; split <;> rfl

/-- Everything raising an event can do (R164): it enters the queue while fewer than 32 are held, and otherwise sets
LOST. -/
theorem raise_du (s : State) (k : EventKind) (c : Channel) :
    (s.raise k c).du =
      if s.du.events.length < Config.eventCapacity then { s.du with events := s.du.events ++ [⟨k, c⟩] }
      else { s.du with lost := true } := by
  unfold raise; split <;> rfl

theorem raise_events_length (s : State) (k : EventKind) (c : Channel)
    (h : s.du.events.length ≤ Config.eventCapacity) : (s.raise k c).du.events.length ≤ Config.eventCapacity := by
  rw [raise_du]
  split
  · rename_i hlt; simpa using Nat.succ_le_of_lt hlt
  · exact h

/-! ## Reading a record after a write -/

@[simp] theorem channel_setChannel_same (s : State) (c : Channel) (r : ChannelRecord) :
    (s.setChannel c r).channel c = r := by simp [channel, Assoc.find_put_same]

theorem channel_setChannel_other (s : State) {c d : Channel} (r : ChannelRecord) (h : d ≠ c) :
    (s.setChannel c r).channel d = s.channel d := by simp [channel, Assoc.find_put_other _ _ h]

@[simp] theorem channel_modChannel_same (s : State) (c : Channel) (f : ChannelRecord → ChannelRecord) :
    (s.modChannel c f).channel c = f (s.channel c) := channel_setChannel_same _ _ _

theorem channel_modChannel_other (s : State) {c d : Channel} (f : ChannelRecord → ChannelRecord) (h : d ≠ c) :
    (s.modChannel c f).channel d = s.channel d := channel_setChannel_other _ _ h

/-- A channel record is read from the channel map alone. -/
theorem channel_of_cm {s t : State} (h : t.cm = s.cm) (c : Channel) : t.channel c = s.channel c := by
  simp [channel, h]

@[simp] theorem slot_setSlot_same (s : State) (n : SlotNo) (e : SlotEntry) : (s.setSlot n e).slot n = e := by
  simp [slot, Assoc.find_put_same]

theorem slot_setSlot_other (s : State) {n m : SlotNo} (e : SlotEntry) (h : m ≠ n) :
    (s.setSlot n e).slot m = s.slot m := by simp [slot, Assoc.find_put_other _ _ h]

@[simp] theorem slot_modSlot_same (s : State) (n : SlotNo) (f : SlotEntry → SlotEntry) :
    (s.modSlot n f).slot n = f (s.slot n) := slot_setSlot_same _ _ _

theorem slot_modSlot_other (s : State) {n m : SlotNo} (f : SlotEntry → SlotEntry) (h : m ≠ n) :
    (s.modSlot n f).slot m = s.slot m := slot_setSlot_other _ _ h

/-- A slot entry is read from the slots alone. -/
theorem slot_of_slots {s t : State} (h : t.sn.slots = s.sn.slots) (n : SlotNo) : t.slot n = s.slot n := by
  simp [slot, h]

@[simp] theorem context_setContext_same (s : State) (k : CtxNo) (x : Context) :
    (s.setContext k x).context k = some x := by simp [context, Assoc.find_put_same]

theorem context_setContext_other (s : State) {k j : CtxNo} (x : Context) (h : j ≠ k) :
    (s.setContext k x).context j = s.context j := by simp [context, Assoc.find_put_other _ _ h]

@[simp] theorem context_freeContext_same (s : State) (k : CtxNo) : (s.freeContext k).context k = none := by
  simp [context, Assoc.find_drop_same]

theorem context_freeContext_other (s : State) {k j : CtxNo} (h : j ≠ k) :
    (s.freeContext k).context j = s.context j := by simp [context, Assoc.find_drop_other _ h]

@[simp] theorem register_setRegister_same (s : State) (c : Channel) (x : FibreRegister) :
    (s.setRegister c x).register c = some x := by simp [register, Assoc.find_put_same]

theorem register_setRegister_other (s : State) {c d : Channel} (x : FibreRegister) (h : d ≠ c) :
    (s.setRegister c x).register d = s.register d := by simp [register, Assoc.find_put_other _ _ h]

end Sys2Proof.Machine.State
end

