-- ==== Sys2Proof/Laws/Frame.lean ====
section
/-! SUPPORT. What the claims and the part's own steps leave alone: each keeps `State.frame`. -/

namespace Sys2Proof.Machine

/-! ## Named updates -/

@[simp] theorem frame_addDue (s : State) (d : Due) : (s.addDue d).frame = s.frame := rfl
@[simp] theorem frame_due (s : State) (l : List Due) : State.frame { s with due := l } = s.frame := rfl
@[simp] theorem frame_setChannel (s : State) (c : Channel) (r : ChannelRecord) :
    (s.setChannel c r).frame = s.frame := rfl
@[simp] theorem frame_modChannel (s : State) (c : Channel) (f : ChannelRecord → ChannelRecord) :
    (s.modChannel c f).frame = s.frame := rfl
@[simp] theorem frame_setContext (s : State) (k : CtxNo) (x : Context) : (s.setContext k x).frame = s.frame := rfl
@[simp] theorem frame_freeContext (s : State) (k : CtxNo) : (s.freeContext k).frame = s.frame := rfl
@[simp] theorem frame_enqueueProof (s : State) (c : Channel) : (s.enqueueProof c).frame = s.frame := rfl
@[simp] theorem frame_dequeueProof (s : State) (c : Channel) : (s.dequeueProof c).frame = s.frame := rfl
@[simp] theorem frame_setSlot (s : State) (n : SlotNo) (e : SlotEntry) : (s.setSlot n e).frame = s.frame := rfl
@[simp] theorem frame_modSlot (s : State) (n : SlotNo) (f : SlotEntry → SlotEntry) :
    (s.modSlot n f).frame = s.frame := rfl
@[simp] theorem frame_freeSlot (s : State) (n : SlotNo) : (s.freeSlot n).frame = s.frame := rfl
@[simp] theorem frame_barSlot (s : State) (n : SlotNo) : (s.barSlot n).frame = s.frame := rfl
@[simp] theorem frame_appendNotice (s : State) (k : NoticeKind) (c : Channel) :
    (s.appendNotice k c).frame = s.frame := rfl
@[simp] theorem frame_removeQueued (s : State) (k : NoticeKind) (c : Channel) :
    (s.removeQueued k c).frame = s.frame := rfl
@[simp] theorem frame_clearOutstanding (s : State) : s.clearOutstanding.frame = s.frame := rfl
@[simp] theorem frame_schedule (s : State) (c : Channel) (n : SlotNo) (g : Nat) :
    (s.schedule c n g).frame = s.frame := rfl
@[simp] theorem frame_cancelSchedule (s : State) (c : Channel) : (s.cancelSchedule c).frame = s.frame := rfl
@[simp] theorem frame_setRegister (s : State) (c : Channel) (x : FibreRegister) :
    (s.setRegister c x).frame = s.frame := rfl
@[simp] theorem frame_setFlight (s : State) (f : Option Flight) : (s.setFlight f).frame = s.frame := rfl
@[simp] theorem frame_goDark (s : State) : s.goDark.frame = s.frame := rfl
@[simp] theorem frame_noticesLinkLost (s : State) : s.noticesLinkLost.frame = s.frame := rfl
@[simp] theorem frame_place (s : State) (r : Request) (n : SlotNo) : (s.place r n).frame = s.frame := rfl

@[simp] theorem frame_raise (s : State) (k : EventKind) (c : Channel) : (s.raise k c).frame = s.frame := by
  unfold State.raise; split <;> rfl

@[simp] theorem frame_modContext (s : State) (k : CtxNo) (f : Context → Context) :
    (s.modContext k f).frame = s.frame := by
  unfold State.modContext; split <;> simp

@[simp] theorem frame_modContextOf (s : State) (c : Channel) (f : Context → Context) :
    (s.modContextOf c f).frame = s.frame := by
  unfold State.modContextOf; split <;> simp

@[simp] theorem frame_handBack (s : State) (c : Channel) : (s.handBack c).frame = s.frame := by
  unfold State.handBack; split <;> simp

@[simp] theorem frame_releaseSlotOf (s : State) (c : Channel) : (s.releaseSlotOf c).frame = s.frame := by
  unfold State.releaseSlotOf; split <;> simp

@[simp] theorem frame_withdrawNotice (s : State) (k : NoticeKind) (c : Channel) :
    (s.withdrawNotice k c).frame = s.frame := by
  unfold State.withdrawNotice; dsimp only; split <;> simp

@[simp] theorem frame_dropCut (s : State) (c : Channel) : (s.dropCut c).frame = s.frame := by simp [State.dropCut]

@[simp] theorem frame_kickStore (s : State) : s.kickStore.frame = s.frame := by
  unfold State.kickStore; split <;> simp

/-- A claim that keeps the frame keeps it whether or not it is stale. -/
theorem frame_getD {o : Option State} {u : State} {x : State} (h : ∀ t, o = some t → t.frame = x.frame)
    (hu : u.frame = x.frame) : (o.getD u).frame = x.frame := by
  cases o with
  | none => exact hu
  | some t => exact h t rfl

/-! ## Claims -/

theorem frame_claimAssign {s t : State} {c : Channel} {k : CtxNo} (h : s.claimAssign c k = some t) :
    t.frame = s.frame := by
  unfold State.claimAssign at h
  dsimp only at h
  split at h
  · cases h; split <;> simp
  · cases h; simp
  · exact absurd h (by simp)

theorem frame_assignHead {s t : State} (h : s.assignHead = some t) : t.frame = s.frame := by
  unfold State.assignHead at h
  split at h
  · cases h
    exact frame_getD (fun t ht => (frame_claimAssign ht).trans rfl) rfl
  · exact absurd h (by simp)

@[simp] theorem frame_assignUpTo (n : Nat) (s : State) : (State.assignUpTo n s).frame = s.frame := by
  induction n generalizing s with
  | zero => rfl
  | succ n ih =>
    unfold State.assignUpTo
    split
    · rfl
    · rename_i t ht; rw [ih, frame_assignHead ht]

@[simp] theorem frame_assignContexts (s : State) : s.assignContexts.frame = s.frame := frame_assignUpTo _ _

theorem frame_assignByJoin {s t : State} {c : Channel} {n : SlotNo} (h : s.assignByJoin c n = some t) :
    t.frame = s.frame := by
  unfold State.assignByJoin at h
  split at h
  · exact absurd h (by simp)
  · split at h
    · cases h; simp
    · exact absurd h (by simp)

theorem frame_claimSlotReserved {s t : State} {c : Channel} {n : SlotNo} (h : s.claimSlotReserved c n = some t) :
    t.frame = s.frame := by
  unfold State.claimSlotReserved at h; split at h
  · cases h; simp
  · exact absurd h (by simp)

theorem frame_claimSlotReleased {s t : State} {c : Channel} {n : SlotNo} (h : s.claimSlotReleased c n = some t) :
    t.frame = s.frame := by
  unfold State.claimSlotReleased at h; split at h
  · cases h; simp
  · exact absurd h (by simp)

theorem frame_claimJoinAgreed {s t : State} {c : Channel} {n : SlotNo} (h : s.claimJoinAgreed c n = some t) :
    t.frame = s.frame := by
  unfold State.claimJoinAgreed at h; split at h
  · cases h; simp
  · exact absurd h (by simp)

@[simp] theorem frame_endJoin (s : State) (c : Channel) (k : EventKind) : (s.endJoin c k).frame = s.frame := by
  simp [State.endJoin]

theorem frame_claimJoinFailed {s t : State} {c : Channel} (h : s.claimJoinFailed c = some t) : t.frame = s.frame := by
  unfold State.claimJoinFailed at h; split at h
  · cases h; simp
  · exact absurd h (by simp)

theorem frame_claimJoinTimeout {s t : State} {c : Channel} {k : CtxNo} (h : s.claimJoinTimeout c k = some t) :
    t.frame = s.frame := by
  unfold State.claimJoinTimeout at h; split at h
  · cases h; simp
  · exact absurd h (by simp)

theorem frame_claimProofSuccess {s t : State} {c : Channel} {k : CtxNo} {l : Lag}
    (h : s.claimProofSuccess c k l = some t) : t.frame = s.frame := by
  unfold State.claimProofSuccess at h; split at h
  · cases h; simp
  · exact absurd h (by simp)

theorem frame_claimProofFailure {s t : State} {c : Channel} {k : CtxNo} (h : s.claimProofFailure c k = some t) :
    t.frame = s.frame := by
  unfold State.claimProofFailure at h; split at h
  · cases h; simp
  · exact absurd h (by simp)

theorem frame_claimDemotion {s t : State} {c : Channel} {k : CtxNo} (h : s.claimDemotion c k = some t) :
    t.frame = s.frame := by
  unfold State.claimDemotion at h
  dsimp only at h
  split at h
  · cases h; split <;> simp
  · exact absurd h (by simp)

theorem frame_claimPeerCut {s t : State} {c : Channel} {n : SlotNo} (h : s.claimPeerCut c n = some t) :
    t.frame = s.frame := by
  unfold State.claimPeerCut at h
  split at h
  · split at h
    · cases h; simp
    · cases h; simp
    · cases h; rfl
    · exact absurd h (by simp)
  · exact absurd h (by simp)

theorem frame_claimCutFailed {s t : State} {c : Channel} {n : SlotNo} (h : s.claimCutFailed c n = some t) :
    t.frame = s.frame := by
  unfold State.claimCutFailed at h; split at h
  · cases h; simp
  · exact absurd h (by simp)

@[simp] theorem frame_startCarriage (s : State) (c : Channel) : (s.startCarriage c).frame = s.frame := by
  simp [State.startCarriage]

theorem frame_claimCollapse {s t : State} {c : Channel} {k : CtxNo} (h : s.claimCollapse c k = some t) :
    t.frame = s.frame := by
  unfold State.claimCollapse at h; split at h
  · cases h; simp
  · exact absurd h (by simp)

@[simp] theorem frame_fall (s : State) (c : Channel) : (s.fall c).frame = s.frame := rfl

theorem frame_claimSilence {s t : State} {c : Channel} {n : SlotNo} (h : s.claimSilence c n = some t) :
    t.frame = s.frame := by
  unfold State.claimSilence at h; split at h
  · cases h; simp
  · exact absurd h (by simp)

theorem frame_claimHeard {s t : State} {c : Channel} {n : SlotNo} (h : s.claimHeard c n = some t) :
    t.frame = s.frame := by
  unfold State.claimHeard at h
  dsimp only at h
  split at h
  · cases h; split <;> simp
  · exact absurd h (by simp)

@[simp] theorem frame_loseCarrier (s : State) (c : Channel) : (s.loseCarrier c).frame = s.frame := by
  unfold State.loseCarrier; split <;> simp

/-- A walk whose every step keeps the frame keeps it. -/
theorem frame_foldl {α : Type} (f : State → α → State) (h : ∀ s a, (f s a).frame = s.frame) (l : List α) (s : State) :
    (l.foldl f s).frame = s.frame := by
  induction l generalizing s with
  | nil => rfl
  | cons a t ih => rw [List.foldl_cons, ih, h]

@[simp] theorem frame_claimCarrierLoss (s : State) : s.claimCarrierLoss.frame = s.frame :=
  frame_foldl _ frame_loseCarrier _ _

theorem frame_claimLeaveResolved {s t : State} {c : Channel} {n : SlotNo} {b : Bool}
    (h : s.claimLeaveResolved c n b = some t) : t.frame = s.frame := by
  unfold State.claimLeaveResolved at h
  dsimp only at h
  split at h
  · cases h; cases b <;> simp
  · exact absurd h (by simp)

theorem frame_claimGone {s t : State} {c : Channel} {n : SlotNo} {k : EventKind}
    (h : s.claimGone c n k = some t) : t.frame = s.frame := by
  unfold State.claimGone at h
  dsimp only at h
  split at h
  · cases h; split <;> simp
  · exact absurd h (by simp)

/-! ## Carriage -/

@[simp] theorem frame_chooseWord (s : State) (c : Channel) : (s.chooseWord c).frame = s.frame := by
  unfold State.chooseWord
  split
  · rfl
  · dsimp only
    split <;> split <;> simp

@[simp] theorem frame_quietStep (s : State) (c : Channel) : (s.quietStep c).frame = s.frame := by
  unfold State.quietStep
  split
  · split
    · rfl
    · split
      · exact frame_getD (fun t ht => frame_claimCollapse ht) rfl
      · rfl
  · rfl

@[simp] theorem frame_cutNow (s : State) (c : Channel) (k : EventKind) : (s.cutNow c k).frame = s.frame := by
  simp [State.cutNow]

theorem frame_claimCutDue {s t : State} {c : Channel} {n : SlotNo} (h : s.claimCutDue c n = some t) :
    t.frame = s.frame := by
  unfold State.claimCutDue at h; split at h
  · cases h; simp
  · exact absurd h (by simp)

theorem frame_claimFollowCut {s t : State} {c : Channel} {n : SlotNo} (h : s.claimFollowCut c n = some t) :
    t.frame = s.frame := by
  unfold State.claimFollowCut at h; split at h
  · cases h; simp
  · exact absurd h (by simp)

@[simp] theorem frame_takeCutDue (s : State) (c : Channel) (n : SlotNo) : (s.takeCutDue c n).frame = s.frame :=
  frame_getD (fun _ h => frame_claimCutDue h) rfl

@[simp] theorem frame_takeFollowCut (s : State) (c : Channel) (n : SlotNo) : (s.takeFollowCut c n).frame = s.frame := by
  unfold State.takeFollowCut
  split
  · exact frame_getD (fun t h => (frame_claimFollowCut h).trans rfl) rfl
  · rfl

@[simp] theorem frame_takeGuardEnd (s : State) (c : Channel) : (s.takeGuardEnd c).frame = s.frame := by
  unfold State.takeGuardEnd; split <;> simp

@[simp] theorem frame_takeSlotSilent (s : State) (c : Channel) : (s.takeSlotSilent c).frame = s.frame := by
  unfold State.takeSlotSilent
  split
  · rfl
  · dsimp only; split
    · split <;> simp
    · rfl

/-! ## Notices -/

@[simp] theorem frame_joinSetback (s : State) (c : Channel) (b : Bool) : (s.joinSetback c b).frame = s.frame := by
  unfold State.joinSetback; dsimp only; split
  · simp
  · split <;> simp

@[simp] theorem frame_cutSetback (s : State) (c : Channel) (n : SlotNo) : (s.cutSetback c n).frame = s.frame := by
  unfold State.cutSetback; dsimp only; split <;> simp

@[simp] theorem frame_freeReserved (s : State) (c : Channel) (n : SlotNo) : (s.freeReserved c n).frame = s.frame :=
  frame_getD (fun _ h => (frame_claimSlotReleased h).trans rfl) rfl

@[simp] theorem frame_barReserved (s : State) (c : Channel) (n : SlotNo) : (s.barReserved c n).frame = s.frame :=
  frame_getD (fun _ h => (frame_claimSlotReleased h).trans rfl) rfl

@[simp] theorem frame_joinReply (s : State) (o : Outstanding) (r : Reply) : (s.joinReply o r).frame = s.frame := by
  unfold State.joinReply; split
  · exact frame_getD (fun _ h => frame_claimJoinAgreed h) rfl
  · simp
  · simp
  · simp

@[simp] theorem frame_cutReply (s : State) (o : Outstanding) (r : Reply) : (s.cutReply o r).frame = s.frame := by
  unfold State.cutReply; split
  · rfl
  · split <;> simp

@[simp] theorem frame_leaveReply (s : State) (o : Outstanding) (r : Reply) : (s.leaveReply o r).frame = s.frame :=
  frame_getD (fun _ h => frame_claimLeaveResolved h) rfl

@[simp] theorem frame_takeReply (s : State) (r : Option ReplyField) : (s.takeReply r).frame = s.frame := by
  unfold State.takeReply; split
  · split
    · dsimp only; split <;> simp
    · rfl
  · rfl

@[simp] theorem frame_takeJoinFailed (s : State) (c : Channel) : (s.takeJoinFailed c).frame = s.frame :=
  frame_getD (fun _ h => frame_claimJoinFailed h) rfl

@[simp] theorem frame_takeCutFailed (s : State) (c : Channel) (n : SlotNo) : (s.takeCutFailed c n).frame = s.frame :=
  frame_getD (fun _ h => frame_claimCutFailed h) rfl

@[simp] theorem frame_takeJoinTimeout (s : State) (c : Channel) (k : CtxNo) :
    (s.takeJoinTimeout c k).frame = s.frame := by
  unfold State.takeJoinTimeout; split
  · exact frame_getD (fun _ h => frame_claimJoinTimeout h) rfl
  · rfl

@[simp] theorem frame_takeRetryGapEnd (s : State) (c : Channel) (k : CtxNo) :
    (s.takeRetryGapEnd c k).frame = s.frame := by
  unfold State.takeRetryGapEnd; split <;> simp

@[simp] theorem frame_takeBarClockExpiry (s : State) (n : SlotNo) : (s.takeBarClockExpiry n).frame = s.frame := by
  unfold State.takeBarClockExpiry; split <;> simp

@[simp] theorem frame_takeNoticeExpiry (s : State) (n : BitVec 4) : (s.takeNoticeExpiry n).frame = s.frame := by
  unfold State.takeNoticeExpiry; split
  · rfl
  · split
    · dsimp only; split
      · simp
      · simp
      · exact frame_getD (fun _ h => (frame_claimLeaveResolved h).trans rfl) rfl
    · rfl

@[simp] theorem frame_placeHead (s : State) (r : Request) : (s.placeHead r).frame = s.frame := by
  unfold State.placeHead; split
  · split
    · exact frame_getD (fun _ h => frame_claimJoinFailed h) rfl
    · split
      · rfl
      · rename_i h; simp [frame_claimSlotReserved h]
  · split <;> simp
  · split <;> simp

@[simp] theorem frame_placeUpTo (n : Nat) (s : State) : (State.placeUpTo n s).frame = s.frame := by
  induction n generalizing s with
  | zero => rfl
  | succ n ih =>
    unfold State.placeUpTo; split
    · rfl
    · split
      · rfl
      · rw [ih, frame_placeHead]; rfl

@[simp] theorem frame_makeOutstanding (s : State) : s.makeOutstanding.frame = s.frame := frame_placeUpTo _ _

theorem frame_judgeJoin (s : State) (n : SlotNo) (l : Word) : (s.judgeJoin n l).1.frame = s.frame := by
  unfold State.judgeJoin; dsimp only
  split
  · rfl
  · split
    · rfl
    · split
      · rfl
      · split
        · rfl
        · split
          · split
            · rename_i h; exact frame_claimJoinAgreed h
            · rfl
          · split
            · rename_i h; exact frame_assignByJoin h
            · rfl
          all_goals rfl

theorem frame_agreeCut (s : State) (c : Channel) (n : SlotNo) (m : Nat) : (s.agreeCut c n m).1.frame = s.frame := by
  unfold State.agreeCut; split
  · rename_i t h
    have ht := frame_claimPeerCut h
    exact ht
  · rfl

theorem frame_judgeCut (s : State) (n : SlotNo) (m : Nat) : (s.judgeCut n m).1.frame = s.frame := by
  unfold State.judgeCut; dsimp only
  split
  · split
    · exact frame_agreeCut _ _ _ _
    · split
      · split
        · rfl
        · exact frame_agreeCut _ _ _ _
      · exact frame_agreeCut _ _ _ _
    all_goals rfl
  · rfl

theorem frame_judgeLeave (s : State) (n : SlotNo) : (s.judgeLeave n).1.frame = s.frame := by
  unfold State.judgeLeave
  split
  · rfl
  · split
    · exact frame_getD (fun _ h => frame_claimGone h) rfl
    · split
      · exact frame_getD (fun _ h => frame_claimLeaveResolved h) rfl
      · split <;> rfl

@[simp] theorem frame_judgeNotice (s : State) (k : NoticeKind) (f : NoticeField) :
    (s.judgeNotice k f).frame = s.frame := by
  cases k
  · exact frame_judgeJoin s f.slot f.label
  · exact frame_judgeCut s f.slot f.countdown.toNat
  · exact frame_judgeLeave s f.slot

@[simp] theorem frame_takeReplyClaim (s : State) (d : Due) : (s.takeReplyClaim d).frame = s.frame := by
  unfold State.takeReplyClaim; split <;> simp

@[simp] theorem frame_takeReplyClaims (s : State) : s.takeReplyClaims.frame = s.frame :=
  (frame_foldl _ frame_takeReplyClaim _ _).trans rfl

@[simp] theorem frame_takeNotice (s : State) (f : NoticeField) : (s.takeNotice f).frame = s.frame := by
  unfold State.takeNotice; split
  · rfl
  · split
    · simp
    · split <;> simp

@[simp] theorem frame_hear (s : State) (n : SlotNo) : (s.hear n).frame = s.frame := by
  unfold State.hear; split
  · rfl
  · exact frame_getD (fun _ h => frame_claimHeard h) rfl

@[simp] theorem frame_takeHeardFrom (l : List Due) (s : State) : (State.takeHeardFrom l s).frame = s.frame := by
  induction l generalizing s with
  | nil => rfl
  | cons d rest ih => cases d <;> first | rfl | exact (ih _).trans (frame_hear _ _)

@[simp] theorem frame_takeHeard (s : State) : s.takeHeard.frame = s.frame := frame_takeHeardFrom _ _

/-- A walk over the slots keeps the frame if its test does. -/
theorem frame_eachSlot {test : State → SlotNo → Channel → Option ArrivalKind → State}
    (h : ∀ s n c k, (test s n c k).frame = s.frame) (s : State) (a : Assoc SlotNo ArrivalKind) :
    (s.eachSlot a test).frame = s.frame := by
  refine frame_foldl _ (fun t n => ?_) _ _
  unfold State.onSlot; dsimp only; split
  · exact h _ _ _ _
  · rfl

theorem frame_stepTest (s : State) (n : SlotNo) (c : Channel) (k : Option ArrivalKind) :
    (s.stepTest n c k).frame = s.frame := rfl

theorem frame_aheadTest (s : State) (n : SlotNo) (c : Channel) (k : Option ArrivalKind) :
    (s.aheadTest n c k).frame = s.frame := by
  unfold State.aheadTest State.peerAheadTest State.followTest
  dsimp only
  split <;> split <;> simp

theorem frame_shadowTest (s : State) (n : SlotNo) (c : Channel) (k : Option ArrivalKind) :
    (s.shadowTest n c k).frame = s.frame := by
  unfold State.shadowTest; split <;> rfl

theorem frame_silenceTest (s : State) (n : SlotNo) (c : Channel) (k : Option ArrivalKind) :
    (s.silenceTest n c k).frame = s.frame := by
  unfold State.silenceTest; dsimp only; split <;> rfl

theorem frame_heardTest (s : State) (n : SlotNo) (c : Channel) (k : Option ArrivalKind) :
    (s.heardTest n c k).frame = s.frame := by
  unfold State.heardTest; split <;> rfl

@[simp] theorem frame_report (s : State) (a : Assoc SlotNo ArrivalKind) : (s.report a).frame = s.frame := by
  unfold State.report
  rw [frame_takeHeard, frame_eachSlot frame_heardTest, frame_eachSlot frame_silenceTest,
    frame_eachSlot frame_shadowTest, frame_eachSlot frame_aheadTest, frame_eachSlot frame_stepTest]

@[simp] theorem frame_takeOrphanTest (s : State) (n : SlotNo) : (s.takeOrphanTest n).frame = s.frame := by
  unfold State.takeOrphanTest; dsimp only
  split
  · rfl
  · split
    · split
      · exact frame_getD (fun _ h => frame_claimGone h) rfl
      · exact frame_getD (fun _ h => frame_claimSilence h) rfl
    · rfl

@[simp] theorem frame_takePeerShadow (s : State) (n : SlotNo) : (s.takePeerShadow n).frame = s.frame := by
  unfold State.takePeerShadow; split
  · rfl
  · split <;> simp

/-! ## The link -/

@[simp] theorem frame_storeRecord (s : State) (r : ReceivedRecord) : (s.storeRecord r).frame = s.frame := by
  unfold State.storeRecord; split <;> simp

@[simp] theorem frame_useFrame (s : State) (f : ReceivedFrame) : (s.useFrame f).frame = s.frame := by
  have h := frame_foldl State.storeRecord frame_storeRecord f.records ((s.takeReply f.reply).takeNotice f.notice)
  unfold State.useFrame
  rw [frame_report]
  have h' : (f.records.foldl State.storeRecord ((s.takeReply f.reply).takeNotice f.notice)).frame = s.frame := by
    rw [h]; simp
  exact h'

@[simp] theorem frame_takeLinkUp (s : State) : s.takeLinkUp.frame = s.frame := by
  unfold State.takeLinkUp; split
  · rw [frame_useFrame, frame_raise]; rfl
  · rfl

@[simp] theorem frame_takeLinkDown (s : State) : s.takeLinkDown.frame = s.frame := by
  unfold State.takeLinkDown; split <;> simp

@[simp] theorem frame_takeHuntLoss (s : State) : s.takeHuntLoss.frame = s.frame := by
  unfold State.takeHuntLoss; split <;> simp

/-! ## Proof and store -/

@[simp] theorem frame_takeProofSuccess (s : State) (c : Channel) (k : CtxNo) (l : Lag) :
    (s.takeProofSuccess c k l).frame = s.frame := frame_getD (fun _ h => frame_claimProofSuccess h) rfl

@[simp] theorem frame_takeProofFailure (s : State) (c : Channel) (k : CtxNo) :
    (s.takeProofFailure c k).frame = s.frame := frame_getD (fun _ h => frame_claimProofFailure h) rfl

@[simp] theorem frame_takeDemotion (s : State) (c : Channel) (k : CtxNo) :
    (s.takeDemotion c k).frame = s.frame := frame_getD (fun _ h => frame_claimDemotion h) rfl

@[simp] theorem frame_takeStoreWriteStart (s : State) : s.takeStoreWriteStart.frame = s.frame := by
  unfold State.takeStoreWriteStart; split <;> rfl

@[simp] theorem frame_takeReinstatementRetry (s : State) : s.takeReinstatementRetry.frame = s.frame := by
  unfold State.takeReinstatementRetry; split <;> rfl

/-- No own step changes the frame. -/
@[simp] theorem frame_effect (d : Due) (s : State) : (effect d s).frame = s.frame := by
  cases d <;> simp [effect]

/-- Taking the own steps that are due keeps the frame. -/
@[simp] theorem frame_settle (n : Nat) (s : State) : (settle n s).frame = s.frame := by
  induction n generalizing s with
  | zero => rfl
  | succ n ih =>
    unfold settle; split
    · rfl
    · rw [ih, frame_effect]; rfl

@[simp] theorem frame_settled (s : State) : s.settled.frame = s.frame := frame_settle _ _

/-- Nothing is due once the due steps have been taken. -/
@[simp] theorem settle_due (n : Nat) (s : State) : (settle n s).due = [] := by
  induction n generalizing s with
  | zero => rfl
  | succ n ih =>
    unfold settle; split
    · assumption
    · exact ih _

@[simp] theorem settled_due (s : State) : s.settled.due = [] := settle_due _ _

/-- What is in the frame stays with it. -/
theorem frame_keeps {s t : State} (h : s.frame = t.frame) :
    s.ft = t.ft ∧ s.resetHeld = t.resetHeld ∧ s.part = t.part ∧ s.cl.sending = t.cl.sending :=
  ⟨show s.frame.ft = t.frame.ft by rw [h], show s.frame.resetHeld = t.frame.resetHeld by rw [h],
    show s.frame.part = t.frame.part by rw [h], show s.frame.cl.sending = t.frame.cl.sending by rw [h]⟩

/-- With nothing due there is nothing to take. -/
theorem settle_of_due_nil (n : Nat) {s : State} (h : s.due = []) : settle n s = s := by
  cases n with
  | zero => cases s; cases h; rfl
  | succ n => unfold settle; rw [h]

@[simp] theorem settled_of_due_nil {s : State} (h : s.due = []) : s.settled = s := settle_of_due_nil _ h

/-! ## What a kept frame says of the fields -/

theorem frame_part {s t : State} (h : t.frame = s.frame) : t.part = s.part :=
  congrArg (fun u => u.part) h
theorem frame_resetHeld {s t : State} (h : t.frame = s.frame) : t.resetHeld = s.resetHeld :=
  congrArg (fun u => u.resetHeld) h
theorem frame_ft {s t : State} (h : t.frame = s.frame) : t.ft = s.ft := congrArg (fun u => u.ft) h
theorem frame_store {s t : State} (h : t.frame = s.frame) : t.store = s.store :=
  congrArg (fun u => u.store) h
theorem frame_ports {s t : State} (h : t.frame = s.frame) : t.ports = s.ports :=
  congrArg (fun u => u.ports) h
theorem frame_pending {s t : State} (h : t.frame = s.frame) : t.pending = s.pending :=
  congrArg (fun u => u.pending) h
theorem frame_bases {s t : State} (h : t.frame = s.frame) : t.bi.bases = s.bi.bases :=
  congrArg (fun u => u.bi.bases) h
theorem frame_pairing {s t : State} (h : t.frame = s.frame) : t.bi.pairing = s.bi.pairing :=
  congrArg (fun u => u.bi.pairing) h
theorem frame_role {s t : State} (h : t.frame = s.frame) : t.cl.role = s.cl.role := congrArg (fun u => u.cl.role) h
theorem frame_params {s t : State} (h : t.frame = s.frame) : t.sc.params = s.sc.params :=
  congrArg (fun u => u.sc.params) h
theorem frame_latches {s t : State} (h : t.frame = s.frame) : t.du.latches = s.du.latches :=
  congrArg (fun u => u.du.latches) h
theorem frame_inProgress {s t : State} (h : t.frame = s.frame) : t.du.inProgress = s.du.inProgress :=
  congrArg (fun u => u.du.inProgress) h

end Sys2Proof.Machine
end

