-- ==== Sys2Proof/Laws/Rows.lean ====
section
/-! SUPPORT. What each kind of row answers: an own step its `own`, a bus row its access; and what a row answers on a
state with no own step due. -/

namespace Sys2Proof.Machine

/-- A row of an own step answers `own` of that step. -/
theorem exec_ownStep {i : Instr} {d : Due} (h : ownStep i = some d) (s : State) : exec i s = .next (own d s) := by
  cases i
  all_goals first
    | (cases h; rfl)
    | cases h

/-- A bus row answers the access it stands for. -/
theorem exec_busAccess {i : Instr} {x : Access} (h : busAccess i = some x) (s : State) :
    exec i s = .next (s.busRow x.master x.addr x.op) := by
  cases i
  all_goals first
    | (cases h; rfl)
    | cases h

/-- An own step that is due is taken. -/
theorem own_of_mem {d : Due} {s : State} (h : d ∈ s.due) : own d s = effect d { s with due := s.due.erase d } := if_pos h

/-- An own step that is not due changes nothing. -/
theorem own_of_not_mem {d : Due} {s : State} (h : d ∉ s.due) : own d s = s := if_neg h

/-- A bus row with no own step due. -/
theorem busRow_of_due_nil {s : State} (h : s.due = []) (m : Master) (a : Addr) (op : BusOp) :
    s.busRow m a op = s.access ⟨m, a, op⟩ := by
  unfold State.busRow; rw [settled_of_due_nil h]

/-- The first of the due steps is taken before the rest. -/
theorem settle_succ (n : Nat) (s : State) : settle (n + 1) s = if s.due = [] then s else settle n s.takeFirst := by
  rw [settle]
  unfold State.takeFirst
  cases h : s.due <;> simp

/-- Where the due steps are at most `n`, a larger bound changes nothing. -/
theorem settle_of_settlesWithin {n : Nat} (m : Nat) {s : State} (h : s.settlesWithin n) (hm : n ≤ m) :
    settle m s = settle n s := by
  induction n generalizing m s with
  | zero => rw [settle_of_due_nil m h, settle_of_due_nil 0 h]
  | succ n ih =>
    obtain ⟨k, rfl⟩ : ∃ k, m = k + 1 := ⟨m - 1, by omega⟩
    rw [settle_succ, settle_succ]
    split
    · rfl
    · exact ih k (h.resolve_left (by assumption)) (by omega)

/-- Within the bound, what is settled is what is settled after the first due step. -/
theorem settled_of_settlesWithin {n : Nat} {s : State} (hd : s.due ≠ []) (h : s.settlesWithin (n + 1))
    (hn : n + 1 ≤ Config.settleBound) : s.settled = s.takeFirst.settled := by
  have h' : s.takeFirst.settlesWithin n := h.resolve_left hd
  unfold State.settled
  rw [settle_of_settlesWithin _ h hn, settle_succ, if_neg hd, settle_of_settlesWithin (s := s.takeFirst) Config.settleBound h' (by omega)]

/-- Raising an event, as the statements say it. -/
theorem raise_du_eq (s : State) (k : EventKind) (c : Channel) : (s.raise k c).du = s.du.raised k c := by
  unfold State.raise DirectiveUnit.raised Config.eventCapacity
  split <;> rfl

/-- A raised event changes DU only. -/
theorem raise_eq (s : State) (k : EventKind) (c : Channel) : s.raise k c = { s with du := s.du.raised k c } := by
  unfold State.raise DirectiveUnit.raised Config.eventCapacity
  split <;> rfl

end Sys2Proof.Machine
end

