-- ==== Sys2Proof/Laws/Boundary.lean ====
section
/-! SUPPORT. The boundary rows: each makes `boundary` at its order, and what the steps of a boundary leave alone. -/

namespace Sys2Proof.Machine

/-! ## The rows -/

/-- What a boundary row does after its boundary changes the mark and the events only. -/
def Finish (f : State → State) : Prop := ∀ u, { f u with ft := u.ft, du := u.du } = u

theorem finish_relock (m : MarkState) : Finish (State.relock m) := by
  intro u; cases m
  · rfl
  · simp only [State.relock, raise_eq]

theorem finish_loseMark : Finish State.loseMark := by
  intro u; simp only [State.loseMark, raise_eq]

theorem Finish.eq {f : State → State} (h : Finish f) (u : State) :
    f u = { u with ft := (f u).ft, du := (f u).du } := by
  have := h u
  generalize hv : f u = v at this ⊢
  cases v; cases u; simp_all

/-- With no proof claim due, or with the mark behind those that are, a boundary leaves none due. -/
theorem floating_eq_nil {s : State} (h : .passed ∈ s.due ∨ s.due.filter Due.floats = []) : s.floating = [] := by
  unfold State.floating
  split
  · rfl
  · exact h.resolve_left (by assumption)

/-- Where a boundary leaves no claim due, the order of the claims does not matter. -/
theorem orderedBoundary_of_floating_nil {s : State} (h : s.floating = []) (o : BoundaryOrder) (f : State → State) :
    s.orderedBoundary o f = f (s.settled.boundary o) := by
  unfold State.orderedBoundary
  split
  · rfl
  · have e : { s with due := s.due.filter fun d => decide (d ∉ s.floating) } = s := by
      have : (s.due.filter fun d => decide (d ∉ s.floating)) = s.due := by rw [h]; simp
      rw [this]
    rw [e, h]
    simp [leftDue]

/-- Where it leaves some due, the other steps are taken before it, and the mark stands behind the claims. -/
theorem orderedBoundary_of_floating {s : State} (h : .passed ∉ s.due) (hc : s.due.filter Due.floats ≠ [])
    {o : BoundaryOrder} (ho : o.claimsFirst = false) (f : State → State) :
    s.orderedBoundary o f =
      let u := f (State.boundary (State.settled { s with due := s.due.filter fun d => !d.floats }) o)
      { u with due := u.due ++ s.due.filter Due.floats ++ [.passed] } := by
  have hf : s.floating = s.due.filter Due.floats := by unfold State.floating; rw [if_neg h]
  have e : (s.due.filter fun d => decide (d ∉ s.floating)) = s.due.filter fun d => !d.floats := by
    rw [hf]
    refine List.filter_congr fun d hd => ?_
    simp [List.mem_filter, hd]
  unfold State.orderedBoundary
  rw [if_neg (by rw [ho]; simp), e, hf, leftDue, if_neg hc]
  simp [List.append_assoc]

/-- With no own step due, the order of the claims does not matter. -/
theorem orderedBoundary_of_due_nil {s : State} (h : s.due = []) (o : BoundaryOrder) {f : State → State} :
    s.orderedBoundary o f = f (s.boundary o) := by
  rw [orderedBoundary_of_floating_nil (floating_eq_nil (.inr (by rw [h]; rfl))), settled_of_due_nil h]

/-- A row that makes a boundary, with no own step due. -/
theorem exec_boundaryOf {i : Instr} {o : BoundaryOrder} {s : State} (h : boundaryOf i s = some o) (hd : s.due = []) :
    ∃ τ f, Finish f ∧ exec i s = .next (f ((s.timerAt τ).boundary o)) ∧
      ((∃ time, i = .fmark time o ∧ f = State.relock s.ft.mark) ∨ (i = .holdoverEntry o ∧ f = State.loseMark) ∨
        (i = .holdoverBoundary o ∧ s.ft.mark = .holdover ∧ f = id)) ∧ s.resetHeld = false := by
  unfold boundaryOf at h
  split at h
  · cases h
  · rename_i hr
    have hr : s.resetHeld = false := by simpa using hr
    cases i with
    | fmark time o' =>
      simp only at h
      split at h
      · cases h
      · rename_i hn
        cases h
        refine ⟨time, _, finish_relock s.ft.mark, ?_, .inl ⟨time, rfl, rfl⟩, hr⟩
        have hd' : (s.timerAt time).due = [] := hd
        have hrunt : (s.timerAt time).ft.runt ≠ true := by
          intro q; apply hn
          simp only [FrameTimer.runt, Bool.and_eq_true, decide_eq_true_eq] at q
          exact q
        simp only [exec, execFmark, hr, Bool.false_eq_true, if_false, if_neg hrunt]
        rw [orderedBoundary_of_due_nil hd']
        rfl
    | holdoverEntry o' =>
      simp only at h
      split at h
      · rename_i hm
        cases h
        refine ⟨Config.holdoverLimit, _, finish_loseMark, ?_, .inr (.inl ⟨rfl, rfl⟩), hr⟩
        have hd' : (s.timerAt Config.holdoverLimit).due = [] := hd
        have hc : ¬ (s.resetHeld = true ∨ s.ft.mark = .holdover) := by rw [hr, hm]; simp
        simp only [exec, execHoldoverEntry, if_neg hc]
        rw [orderedBoundary_of_due_nil hd']
      · cases h
    | holdoverBoundary o' =>
      simp only at h
      split at h
      · rename_i hm
        cases h
        refine ⟨Config.holdoverPeriod, id, fun _ => rfl, ?_, .inr (.inr ⟨rfl, hm, rfl⟩), hr⟩
        have hd' : (s.timerAt Config.holdoverPeriod).due = [] := hd
        have hc : ¬ (s.resetHeld = true ∨ s.ft.mark = .locked) := by rw [hr, hm]; simp
        simp only [exec, execHoldoverBoundary, if_neg hc]
        rw [orderedBoundary_of_due_nil hd']
      · cases h
    | _ => cases h

/-- A timer that has reached a time stays where it is. -/
theorem timerAt_of_le {u : State} {τ : Nat} (h : τ ≤ u.ft.timer) : u.timerAt τ = u := by
  unfold State.timerAt; rw [Nat.max_eq_left h]

/-- A row that makes a boundary makes it in order, on the state with the timer at its time; and so it does on every state
with that frame timer. -/
theorem exec_boundary_row {i : Instr} {o : BoundaryOrder} {s : State} (h : boundaryOf i s = some o) :
    ∃ f, Finish f ∧ exec i s = .next ((s.timed i).orderedBoundary o f) ∧
      ∀ u : State, u.ft = (s.timed i).ft → u.resetHeld = s.resetHeld → exec i u = .next (u.orderedBoundary o f) := by
  unfold boundaryOf at h
  split at h
  · cases h
  · rename_i hr
    cases i with
    | fmark time o' =>
      simp only at h
      split at h
      · cases h
      · rename_i hn
        cases h
        have hrunt : (s.timerAt time).ft.runt ≠ true := by
          intro q; apply hn
          simp only [FrameTimer.runt, Bool.and_eq_true, decide_eq_true_eq] at q
          exact q
        refine ⟨State.relock s.ft.mark, finish_relock _, ?_, fun u hu hru => ?_⟩
        · simp only [exec, execFmark, if_neg hr, if_neg hrunt]; rfl
        · have hu : u.ft = (s.timerAt time).ft := hu
          have e : u.timerAt time = u := timerAt_of_le (by rw [hu]; exact Nat.le_max_right _ _)
          have hr' : u.resetHeld ≠ true := by rw [hru]; exact hr
          have hrunt' : u.ft.runt ≠ true := by rw [hu]; exact hrunt
          simp only [exec, execFmark, e, if_neg hr', if_neg hrunt']
          rw [hu]; rfl
    | holdoverEntry o' =>
      simp only at h
      split at h
      · rename_i hm
        cases h
        have hc : ¬ (s.resetHeld = true ∨ s.ft.mark = .holdover) := by rw [hm]; simp [hr]
        refine ⟨State.loseMark, finish_loseMark, ?_, fun u hu hru => ?_⟩
        · simp only [exec, execHoldoverEntry, if_neg hc]; rfl
        · have hu : u.ft = (s.timerAt Config.holdoverLimit).ft := hu
          have e : u.timerAt Config.holdoverLimit = u := timerAt_of_le (by rw [hu]; exact Nat.le_max_right _ _)
          have hc' : ¬ (u.resetHeld = true ∨ u.ft.mark = .holdover) := by rw [hru, hu]; exact hc
          simp only [exec, execHoldoverEntry, e, if_neg hc']
      · cases h
    | holdoverBoundary o' =>
      simp only at h
      split at h
      · rename_i hm
        cases h
        have hc : ¬ (s.resetHeld = true ∨ s.ft.mark = .locked) := by rw [hm]; simp [hr]
        refine ⟨id, fun _ => rfl, ?_, fun u hu hru => ?_⟩
        · simp only [exec, execHoldoverBoundary, if_neg hc]; rfl
        · have hu : u.ft = (s.timerAt Config.holdoverPeriod).ft := hu
          have e : u.timerAt Config.holdoverPeriod = u := timerAt_of_le (by rw [hu]; exact Nat.le_max_right _ _)
          have hc' : ¬ (u.resetHeld = true ∨ u.ft.mark = .locked) := by rw [hru, hu]; exact hc
          simp only [exec, execHoldoverBoundary, e, if_neg hc']
      · cases h
    | _ => cases h

/-- The timer of a row is all that differs. -/
@[simp] theorem timed_due (s : State) (i : Instr) : (s.timed i).due = s.due := by unfold State.timed; split <;> rfl
@[simp] theorem timed_resetHeld (s : State) (i : Instr) : (s.timed i).resetHeld = s.resetHeld := by
  unfold State.timed; split <;> rfl
@[simp] theorem timed_part (s : State) (i : Instr) : (s.timed i).part = s.part := by unfold State.timed; split <;> rfl

/-- In RUNNING, with no frame being sent and no own step due, a boundary is `runningBoundary`. -/
theorem boundary_steady {s : State} (h : s.steady) (hs : s.cl.sending = none) (o : BoundaryOrder) (τ : Nat) :
    (s.timerAt τ).boundary o = (s.timerAt τ).runningBoundary o := by
  unfold State.boundary
  rw [if_pos (show (s.timerAt τ).part = .running from h.1)]
  have e : (s.timerAt τ).reportSent = s.timerAt τ := by
    unfold State.reportSent
    rw [show (s.timerAt τ).cl.sending = none from hs]
  rw [e, settled_of_due_nil (show (s.timerAt τ).due = [] from h.2.2)]

/-! ## What the steps of a boundary leave alone -/

theorem quietStep_rest (s : State) (c : Channel) :
    { s.quietStep c with cm := s.cm, cp := s.cp, du := s.du } = s := by
  unfold State.quietStep
  split
  · split
    · rfl
    · split
      · unfold State.claimCollapse
        split
        · simp only [Option.getD_some, raise_eq, State.handBack]
          split <;> rfl
        · rfl
      · rfl
  · rfl

theorem chooseWord_rest (s : State) (c : Channel) :
    { s.chooseWord c with bi := s.bi, cp := s.cp, due := s.due } = s := by
  unfold State.chooseWord
  split
  · rfl
  · dsimp only
    split <;> split <;> first
      | rfl
      | (simp only [State.modContextOf, State.modContext]; split <;> (try split) <;> rfl)

theorem carryStep_rest (s : State) (c : Channel) :
    { s.carryStep c with bi := s.bi, cm := s.cm, cp := s.cp, du := s.du, due := s.due } = s := by
  unfold State.carryStep
  split
  · rfl
  · split
    · rfl
    · exact (congrArg (fun u : State =>
        { u with bi := s.bi, cm := s.cm, cp := s.cp, du := s.du, due := s.due })
        (chooseWord_rest (s.quietStep c) c)).trans (congrArg (fun u : State =>
        { u with bi := s.bi, due := s.due }) (quietStep_rest s c))

theorem carryAll_rest (s : State) :
    { s.carryAll with bi := s.bi, cm := s.cm, cp := s.cp, du := s.du, due := s.due } = s := by
  unfold State.carryAll
  generalize Assoc.keys s.bi.registers = l
  induction l generalizing s with
  | nil => rfl
  | cons c t ih =>
    rw [List.foldl_cons]
    exact (congrArg (fun u : State =>
      { u with bi := s.bi, cm := s.cm, cp := s.cp, du := s.du, due := s.due }) (ih (s.carryStep c))).trans
      (carryStep_rest s c)

theorem claimAssign_rest {s t : State} {c : Channel} {k : CtxNo} (h : s.claimAssign c k = some t) :
    { t with cm := s.cm, sn := { t.sn with queue := s.sn.queue } } = s := by
  unfold State.claimAssign at h
  split at h
  · cases h; split <;> rfl
  · cases h; rfl
  · cases h

theorem assignHead_rest {s t : State} (h : s.assignHead = some t) :
    { t with cm := s.cm, cp := s.cp, sn := { t.sn with queue := s.sn.queue } } = s := by
  unfold State.assignHead at h
  split at h
  · rename_i c rest k _ _
    cases h
    generalize hv : State.setContext { s with cp := { s.cp with queue := rest } } k (Context.fresh c) = v
    cases hw : v.claimAssign c k with
    | none => subst hv; rfl
    | some w =>
      have h1 := claimAssign_rest hw
      subst hv
      simp only [Option.getD_some]
      generalize w = w at *
      cases w; cases s; simp_all [State.setContext]
  · cases h

theorem assignUpTo_rest (n : Nat) (s : State) :
    { State.assignUpTo n s with
      cm := s.cm
      cp := s.cp
      sn := { (State.assignUpTo n s).sn with queue := s.sn.queue } } = s := by
  induction n generalizing s with
  | zero => rfl
  | succ n ih =>
    unfold State.assignUpTo
    split
    · rfl
    · rename_i t ht
      exact (congrArg (fun u : State =>
        { u with cm := s.cm, cp := s.cp, sn := { u.sn with queue := s.sn.queue } }) (ih t)).trans (assignHead_rest ht)

/-- The assignments of a boundary change the context pool, the channel map and the notice queue only. -/
theorem assignContexts_rest (s : State) :
    { s.assignContexts with
      cm := s.cm
      cp := s.cp
      sn := { s.assignContexts.sn with queue := s.sn.queue } } = s := assignUpTo_rest _ _

/-- A capture handed over changes the capture set only; breaking a pairing changes it and the pairing register. -/
theorem breakPairing_rest (s : State) :
    { s.breakPairing with
      bi := { s.breakPairing.bi with pairing := s.bi.pairing }
      cl := { s.breakPairing.cl with captures := s.cl.captures } } = s := by
  unfold State.breakPairing
  split
  · rfl
  · split <;> rfl

theorem foldl_keeps {α β : Type} (g : State → β) (f : State → α → State) (h : ∀ s a, g (f s a) = g s) (l : List α)
    (s : State) : g (l.foldl f s) = g s := by
  induction l generalizing s with
  | nil => rfl
  | cons a t ih => rw [List.foldl_cons, ih, h]

/-- Counting changes the frame timer, the registers, the channel map's active routes, the contexts, the loss count, the
slots, the schedules, the outstanding notice and PAUSE only. -/
theorem countAll_rest (s : State) :
    { s.countAll with
      ft := s.ft
      bi := { s.countAll.bi with registers := s.bi.registers }
      cm := s.cm
      cp := { s.countAll.cp with contexts := s.cp.contexts }
      cl := { s.countAll.cl with markGood := s.cl.markGood, lossCount := s.cl.lossCount }
      sn := { s.countAll.sn with slots := s.sn.slots, outstanding := s.sn.outstanding, schedules := s.sn.schedules }
      sc := { s.countAll.sc with flight := s.sc.flight } } = s := by
  have h1 : ∀ u : State, { u.pauseStep.1 with sc := { u.pauseStep.1.sc with flight := u.sc.flight } } = u := by
    intro u; unfold State.pauseStep; split <;> rfl
  have h2 : ∀ (l : List Channel) (u : State),
      { l.foldl State.endGuard u with bi := { (l.foldl State.endGuard u).bi with registers := u.bi.registers } } = u := by
    intro l; induction l with
    | nil => intro u; rfl
    | cons c t ih =>
      intro u
      rw [List.foldl_cons]
      have h3 : { u.endGuard c with bi := { (u.endGuard c).bi with registers := u.bi.registers } } = u := by
        unfold State.endGuard; split <;> rfl
      exact (congrArg (fun v : State => { v with bi := { v.bi with registers := u.bi.registers } })
        (ih (u.endGuard c))).trans h3
  unfold State.countAll
  dsimp only
  refine (congrArg (fun v : State => { v with
      ft := s.ft
      bi := { v.bi with registers := s.bi.registers }
      cm := s.cm
      cp := { v.cp with contexts := s.cp.contexts }
      cl := { v.cl with markGood := s.cl.markGood, lossCount := s.cl.lossCount }
      sn := { v.sn with slots := s.sn.slots, outstanding := s.sn.outstanding, schedules := s.sn.schedules }
      sc := { v.sc with flight := s.sc.flight } }) (h1 _)).trans ?_
  refine (congrArg (fun v : State => { v with
      ft := s.ft
      bi := { v.bi with registers := s.bi.registers }
      cm := s.cm
      cp := { v.cp with contexts := s.cp.contexts }
      cl := { v.cl with markGood := s.cl.markGood, lossCount := s.cl.lossCount }
      sn := { v.sn with slots := s.sn.slots, outstanding := s.sn.outstanding, schedules := s.sn.schedules }
      sc := { v.sc with flight := s.sc.flight } })
    (h2 _ _)).trans ?_
  rfl

/-- What a boundary in RUNNING does to the frame timer, and what it leaves alone. -/
theorem countAll_ft (s : State) : s.countAll.ft = s.tick.ft := by
  have h1 : ∀ u : State, u.pauseStep.1.ft = u.ft := by intro u; unfold State.pauseStep; split <;> rfl
  have h2 : ∀ (u : State) (c : Channel), (u.endGuard c).ft = u.ft := by
    intro u c; unfold State.endGuard; split <;> rfl
  unfold State.countAll
  rw [h1, foldl_keeps State.ft _ h2]
  rfl

/-- The state of a boundary when its frame is built: the counts stepped, and the early steps of the order taken. -/
def State.beforeFrame (s : State) (o : BoundaryOrder) : State :=
  State.early o.noticeFirst State.makeOutstanding (State.early o.lossFirst State.takeLinkDown
    (State.early o.assignFirst State.assignContexts s.countAll))

/-- The early steps of a boundary keep the frame. -/
theorem frame_beforeFrame (s : State) (o : BoundaryOrder) : (s.beforeFrame o).frame = s.countAll.frame := by
  unfold State.beforeFrame State.early
  split <;> split <;> split <;> simp

/-- The state of a boundary once its frame is built: pairing closed, captures discarded. -/
def State.framed (s : State) (o : BoundaryOrder) : State :=
  let t := if o.captureFirst = true then (s.beforeFrame o).breakPairing.sendFrame s.cm
    else State.breakPairing ((s.beforeFrame o).sendFrame s.cm)
  { t with cl := { t.cl with captures := [] } }

/-- A boundary in RUNNING: the frame, then the fibre words, then what comes due. -/
theorem runningBoundary_eq (s : State) (o : BoundaryOrder) : ∃ d, s.runningBoundary o =
    { (s.framed o).carryAll with
      due := d ++ (s.framed o).carryAll.due ++ s.countAll.lossDue ++
        (s.countAll.joinsOver ++ s.gapsOver ++ barsOver s.countAll.sn.slots) ++
        lateDue o.noticeFirst [.noticeOutstanding] ++ lateDue o.assignFirst [.contextAssign] ++
        (if s.pauseStep.2 = true then [Due.reinstatementRetry] else []) } :=
  ⟨cutsDue s.sn.schedules ++ followsDue s.sn.slots ++ s.guardsOver.map Due.guardEnd, rfl⟩

/-- Building the frame changes CL, the pairing register, the outstanding notice and the free-value counter only. -/
theorem framed_rest (s : State) (o : BoundaryOrder) :
    { s.framed o with
      bi := { (s.framed o).bi with pairing := (s.beforeFrame o).bi.pairing }
      cl := { (s.framed o).cl with sending := (s.beforeFrame o).cl.sending, captures := (s.beforeFrame o).cl.captures }
      sn := { (s.framed o).sn with outstanding := (s.beforeFrame o).sn.outstanding }
      freeUsed := (s.beforeFrame o).freeUsed } = s.beforeFrame o := by
  unfold State.framed
  generalize s.beforeFrame o = b
  split
  · have h := breakPairing_rest b
    exact congrArg (fun v : State => { v with
      bi := { v.bi with pairing := b.bi.pairing }
      cl := { v.cl with sending := b.cl.sending, captures := b.cl.captures }
      sn := { v.sn with outstanding := b.sn.outstanding }
      freeUsed := b.freeUsed }) h
  · have h := breakPairing_rest (b.sendFrame s.cm)
    exact congrArg (fun v : State => { v with
      bi := { v.bi with pairing := b.bi.pairing }
      cl := { v.cl with sending := b.cl.sending, captures := b.cl.captures }
      sn := { v.sn with outstanding := b.sn.outstanding }
      freeUsed := b.freeUsed }) h

end Sys2Proof.Machine
end

