-- ==== Sys2Proof/Laws/Claims.lean ====
section
/-! SUPPORT. What the operations that claims share do to a state, each as one equation, and what each leaves of the
records, contexts, slots and notices. -/

namespace Sys2Proof.Machine.State

/-- A withdrawal changes the notice queue and the outstanding notice only. -/
theorem withdrawNotice_eq (s : State) (k : NoticeKind) (c : Channel) :
    s.withdrawNotice k c =
      { s with sn := { s.sn with queue := s.queueWithout k c, outstanding := s.outstandingWithout k c } } := by
  unfold withdrawNotice isOutstanding outstandingWithout queueWithout removeQueued clearOutstanding
  cases h : s.sn.outstanding with
  | none => simp [h]
  | some o => by_cases h1 : o.kind = k <;> by_cases h2 : o.channel = c <;> simp [h, h1, h2]

/-- An own CUT dropped, with its schedule. -/
theorem dropCut_eq (s : State) (c : Channel) :
    s.dropCut c = { s with sn := { s.sn with
      queue := s.queueWithout .cut c
      outstanding := s.outstandingWithout .cut c
      schedules := Assoc.drop s.sn.schedules c } } := by
  unfold dropCut; rw [withdrawNotice_eq]; rfl

/-- A hand-back changes the channel's record and frees its context. -/
theorem handBack_eq (s : State) (c : Channel) :
    s.handBack c = { s with
      cm := Assoc.put s.cm c { s.channel c with context := none, lag := 0 }
      cp := match (s.channel c).context with
        | none => s.cp
        | some k => { s.cp with contexts := Assoc.drop s.cp.contexts k } } := by
  unfold handBack
  cases h : (s.channel c).context with
  | none =>
    have : { s.channel c with context := none, lag := 0 } = { s.channel c with lag := 0 } := by
      rw [← h]
    simp only [modChannel, setChannel, this]
  | some k => rfl

/-- A slot release changes the channel's record and frees its slot. -/
theorem releaseSlotOf_eq_none {s : State} {c : Channel} (h : (s.channel c).slot = none) : s.releaseSlotOf c = s := by
  unfold releaseSlotOf; rw [h]

/-- The same for a channel that names a slot. -/
theorem releaseSlotOf_eq_some {s : State} {c : Channel} {n : SlotNo} (h : (s.channel c).slot = some n) :
    s.releaseSlotOf c = (s.freeSlot n).modChannel c fun r => { r with slot := none } := by
  unfold releaseSlotOf; rw [h]

/-- The record of a channel after a hand-back. -/
@[simp] theorem channel_handBack_same (s : State) (c : Channel) :
    (s.handBack c).channel c = { s.channel c with context := none, lag := 0 } := by
  rw [handBack_eq]; exact channel_setChannel_same s c _

theorem channel_handBack_other (s : State) {c d : Channel} (h : d ≠ c) : (s.handBack c).channel d = s.channel d := by
  rw [handBack_eq]; exact channel_setChannel_other s _ h

@[simp] theorem handBack_sn (s : State) (c : Channel) : (s.handBack c).sn = s.sn := by rw [handBack_eq]
@[simp] theorem handBack_du (s : State) (c : Channel) : (s.handBack c).du = s.du := by rw [handBack_eq]
@[simp] theorem handBack_due (s : State) (c : Channel) : (s.handBack c).due = s.due := by rw [handBack_eq]
@[simp] theorem handBack_queue (s : State) (c : Channel) : (s.handBack c).cp.queue = s.cp.queue := by
  rw [handBack_eq]; cases (s.channel c).context <;> rfl

/-- A hand-back frees the context that the record names, and no other. -/
theorem handBack_freed (s : State) (c : Channel) : contextFreed (s.channel c).context s (s.handBack c) := by
  rw [handBack_eq]
  constructor
  · intro j h
    rw [h]
    exact context_freeContext_same s j
  · intro j h
    cases hc : (s.channel c).context with
    | none => rfl
    | some k => exact context_freeContext_other s (fun e => h (by rw [hc, e]))

/-- The record of a channel after its slot is released. -/
@[simp] theorem channel_releaseSlotOf_same (s : State) (c : Channel) :
    (s.releaseSlotOf c).channel c = { s.channel c with slot := none } := by
  cases h : (s.channel c).slot with
  | none => rw [releaseSlotOf_eq_none h]; rw [← h]
  | some n => rw [releaseSlotOf_eq_some h, channel_modChannel_same]; rfl

theorem channel_releaseSlotOf_other (s : State) {c d : Channel} (h : d ≠ c) :
    (s.releaseSlotOf c).channel d = s.channel d := by
  cases hs : (s.channel c).slot with
  | none => rw [releaseSlotOf_eq_none hs]
  | some n => rw [releaseSlotOf_eq_some hs, channel_modChannel_other _ _ h]; rfl

@[simp] theorem releaseSlotOf_cp (s : State) (c : Channel) : (s.releaseSlotOf c).cp = s.cp := by
  unfold releaseSlotOf; split <;> rfl
@[simp] theorem releaseSlotOf_du (s : State) (c : Channel) : (s.releaseSlotOf c).du = s.du := by
  unfold releaseSlotOf; split <;> rfl
@[simp] theorem releaseSlotOf_due (s : State) (c : Channel) : (s.releaseSlotOf c).due = s.due := by
  unfold releaseSlotOf; split <;> rfl
@[simp] theorem releaseSlotOf_queue (s : State) (c : Channel) : (s.releaseSlotOf c).sn.queue = s.sn.queue := by
  unfold releaseSlotOf; split <;> rfl
@[simp] theorem releaseSlotOf_outstanding (s : State) (c : Channel) :
    (s.releaseSlotOf c).sn.outstanding = s.sn.outstanding := by unfold releaseSlotOf; split <;> rfl
@[simp] theorem releaseSlotOf_schedules (s : State) (c : Channel) :
    (s.releaseSlotOf c).sn.schedules = s.sn.schedules := by unfold releaseSlotOf; split <;> rfl

/-- A release frees the slot that the record names, and no other. -/
theorem releaseSlotOf_freed (s : State) (c : Channel) : slotFreed (s.channel c).slot s (s.releaseSlotOf c) := by
  cases h : (s.channel c).slot with
  | none => rw [releaseSlotOf_eq_none h]; exact ⟨(fun _ e => nomatch e), fun _ _ => rfl⟩
  | some n =>
    rw [releaseSlotOf_eq_some h]
    constructor
    · intro m hm; cases hm
      show (s.freeSlot n).slot n = _
      unfold freeSlot; rw [slot_modSlot_same]; rfl
    · intro m hm; exact slot_modSlot_other s _ (fun e => hm (by rw [e]))

@[simp] theorem context_modChannel (s : State) (c : Channel) (f : ChannelRecord → ChannelRecord) (k : CtxNo) :
    (s.modChannel c f).context k = s.context k := rfl
@[simp] theorem slot_modChannel (s : State) (c : Channel) (f : ChannelRecord → ChannelRecord) (n : SlotNo) :
    (s.modChannel c f).slot n = s.slot n := rfl
@[simp] theorem slot_handBack (s : State) (c : Channel) (n : SlotNo) : (s.handBack c).slot n = s.slot n := by
  unfold State.slot; rw [handBack_sn]
@[simp] theorem context_releaseSlotOf (s : State) (c : Channel) (k : CtxNo) :
    (s.releaseSlotOf c).context k = s.context k := by unfold State.context; rw [releaseSlotOf_cp]
@[simp] theorem channel_withdrawNotice (s : State) (k : NoticeKind) (c d : Channel) :
    (s.withdrawNotice k c).channel d = s.channel d := by rw [withdrawNotice_eq]; rfl
@[simp] theorem context_withdrawNotice (s : State) (k : NoticeKind) (c : Channel) (j : CtxNo) :
    (s.withdrawNotice k c).context j = s.context j := by rw [withdrawNotice_eq]; rfl
@[simp] theorem slot_withdrawNotice (s : State) (k : NoticeKind) (c : Channel) (n : SlotNo) :
    (s.withdrawNotice k c).slot n = s.slot n := by rw [withdrawNotice_eq]; rfl
@[simp] theorem channel_dropCut (s : State) (c d : Channel) : (s.dropCut c).channel d = s.channel d := by
  rw [dropCut_eq]; rfl
@[simp] theorem context_dropCut (s : State) (c : Channel) (j : CtxNo) : (s.dropCut c).context j = s.context j := by
  rw [dropCut_eq]; rfl
@[simp] theorem slot_dropCut (s : State) (c : Channel) (n : SlotNo) : (s.dropCut c).slot n = s.slot n := by
  rw [dropCut_eq]; rfl

/-- A schedule cancelled is that of the channel alone. -/
theorem dropCut_cancelled (s : State) (c : Channel) : scheduleCancelled c s (s.dropCut c) := by
  rw [dropCut_eq]
  exact ⟨Assoc.find_drop_same _ _, fun d h => Assoc.find_drop_other _ h⟩

/-! ## What no claim on one channel changes -/

@[simp] theorem claimFrame_modChannel (s : State) (c : Channel) (f : ChannelRecord → ChannelRecord) :
    (s.modChannel c f).claimFrame = s.claimFrame := rfl
@[simp] theorem claimFrame_enqueueProof (s : State) (c : Channel) : (s.enqueueProof c).claimFrame = s.claimFrame := rfl
@[simp] theorem claimFrame_dequeueProof (s : State) (c : Channel) : (s.dequeueProof c).claimFrame = s.claimFrame := rfl
@[simp] theorem claimFrame_handBack (s : State) (c : Channel) : (s.handBack c).claimFrame = s.claimFrame := by
  rw [handBack_eq]; rfl
@[simp] theorem claimFrame_modSlot (s : State) (n : SlotNo) (f : SlotEntry → SlotEntry) :
    (s.modSlot n f).claimFrame = s.claimFrame := rfl
@[simp] theorem claimFrame_releaseSlotOf (s : State) (c : Channel) :
    (s.releaseSlotOf c).claimFrame = s.claimFrame := by unfold releaseSlotOf; split <;> rfl
@[simp] theorem claimFrame_withdrawNotice (s : State) (k : NoticeKind) (c : Channel) :
    (s.withdrawNotice k c).claimFrame = s.claimFrame := by rw [withdrawNotice_eq]; rfl
@[simp] theorem claimFrame_dropCut (s : State) (c : Channel) : (s.dropCut c).claimFrame = s.claimFrame := by
  rw [dropCut_eq]; rfl
@[simp] theorem claimFrame_raise (s : State) (k : EventKind) (c : Channel) :
    (s.raise k c).claimFrame = s.claimFrame := by unfold State.raise; split <;> rfl
@[simp] theorem claimFrame_modContext (s : State) (k : CtxNo) (f : Context → Context) :
    (s.modContext k f).claimFrame = s.claimFrame := by unfold modContext; split <;> rfl
@[simp] theorem claimFrame_modContextOf (s : State) (c : Channel) (f : Context → Context) :
    (s.modContextOf c f).claimFrame = s.claimFrame := by unfold modContextOf; split <;> simp
@[simp] theorem claimFrame_due (s : State) (l : List Due) : State.claimFrame { s with due := l } = s.claimFrame := rfl

end Sys2Proof.Machine.State
end

