-- ==== Sys2Proof/Laws/ClaimSpecs.lean ====
section
/-! SUPPORT. What each claim on one channel leaves: its record, the context, slot and notices handed over, the event, and
that all else stays. -/

namespace Sys2Proof.Machine.State

/-! ## What an update leaves of the records, contexts and slots -/

@[simp] theorem channel_raise (s : State) (k : EventKind) (c d : Channel) :
    (s.raise k c).channel d = s.channel d := by rw [raise_eq]; rfl
@[simp] theorem context_raise (s : State) (k : EventKind) (c : Channel) (j : CtxNo) :
    (s.raise k c).context j = s.context j := by rw [raise_eq]; rfl
@[simp] theorem slot_raise (s : State) (k : EventKind) (c : Channel) (n : SlotNo) :
    (s.raise k c).slot n = s.slot n := by rw [raise_eq]; rfl
@[simp] theorem channel_enqueueProof (s : State) (c d : Channel) : (s.enqueueProof c).channel d = s.channel d := rfl
@[simp] theorem context_enqueueProof (s : State) (c : Channel) (j : CtxNo) :
    (s.enqueueProof c).context j = s.context j := rfl
@[simp] theorem slot_enqueueProof (s : State) (c : Channel) (n : SlotNo) : (s.enqueueProof c).slot n = s.slot n := rfl
@[simp] theorem channel_dequeueProof (s : State) (c d : Channel) : (s.dequeueProof c).channel d = s.channel d := rfl
@[simp] theorem context_dequeueProof (s : State) (c : Channel) (j : CtxNo) :
    (s.dequeueProof c).context j = s.context j := rfl
@[simp] theorem slot_dequeueProof (s : State) (c : Channel) (n : SlotNo) : (s.dequeueProof c).slot n = s.slot n := rfl
@[simp] theorem channel_appendNotice (s : State) (k : NoticeKind) (c d : Channel) :
    (s.appendNotice k c).channel d = s.channel d := rfl
@[simp] theorem context_appendNotice (s : State) (k : NoticeKind) (c : Channel) (j : CtxNo) :
    (s.appendNotice k c).context j = s.context j := rfl
@[simp] theorem slot_appendNotice (s : State) (k : NoticeKind) (c : Channel) (n : SlotNo) :
    (s.appendNotice k c).slot n = s.slot n := rfl
@[simp] theorem channel_modSlot (s : State) (n : SlotNo) (f : SlotEntry → SlotEntry) (d : Channel) :
    (s.modSlot n f).channel d = s.channel d := rfl
@[simp] theorem context_modSlot (s : State) (n : SlotNo) (f : SlotEntry → SlotEntry) (j : CtxNo) :
    (s.modSlot n f).context j = s.context j := rfl
@[simp] theorem channel_modContext (s : State) (k : CtxNo) (f : Context → Context) (d : Channel) :
    (s.modContext k f).channel d = s.channel d := by unfold modContext; split <;> rfl
@[simp] theorem slot_modContext (s : State) (k : CtxNo) (f : Context → Context) (n : SlotNo) :
    (s.modContext k f).slot n = s.slot n := by unfold modContext; split <;> rfl
@[simp] theorem channel_modContextOf (s : State) (c : Channel) (f : Context → Context) (d : Channel) :
    (s.modContextOf c f).channel d = s.channel d := by unfold modContextOf; split <;> simp
@[simp] theorem slot_modContextOf (s : State) (c : Channel) (f : Context → Context) (n : SlotNo) :
    (s.modContextOf c f).slot n = s.slot n := by unfold modContextOf; split <;> simp

theorem context_modContext_same {s : State} {k : CtxNo} {x : Context} (f : Context → Context)
    (h : s.context k = some x) : (s.modContext k f).context k = some (f x) := by
  unfold modContext; rw [h]; exact context_setContext_same s k _
theorem context_modContext_other (s : State) {k j : CtxNo} (f : Context → Context) (h : j ≠ k) :
    (s.modContext k f).context j = s.context j := by
  unfold modContext; split
  · rfl
  · exact context_setContext_other s _ h

@[simp] theorem modContext_sn (s : State) (k : CtxNo) (f : Context → Context) : (s.modContext k f).sn = s.sn := by
  unfold modContext; split <;> rfl
@[simp] theorem modContext_du (s : State) (k : CtxNo) (f : Context → Context) : (s.modContext k f).du = s.du := by
  unfold modContext; split <;> rfl
@[simp] theorem modContext_due (s : State) (k : CtxNo) (f : Context → Context) : (s.modContext k f).due = s.due := by
  unfold modContext; split <;> rfl
@[simp] theorem modContext_queue (s : State) (k : CtxNo) (f : Context → Context) :
    (s.modContext k f).cp.queue = s.cp.queue := by unfold modContext; split <;> rfl

@[simp] theorem withdrawNotice_cp (s : State) (k : NoticeKind) (c : Channel) : (s.withdrawNotice k c).cp = s.cp := by
  rw [withdrawNotice_eq]
@[simp] theorem withdrawNotice_du (s : State) (k : NoticeKind) (c : Channel) : (s.withdrawNotice k c).du = s.du := by
  rw [withdrawNotice_eq]
@[simp] theorem withdrawNotice_due (s : State) (k : NoticeKind) (c : Channel) :
    (s.withdrawNotice k c).due = s.due := by rw [withdrawNotice_eq]
@[simp] theorem withdrawNotice_queue (s : State) (k : NoticeKind) (c : Channel) :
    (s.withdrawNotice k c).sn.queue = s.queueWithout k c := by rw [withdrawNotice_eq]
@[simp] theorem withdrawNotice_outstanding (s : State) (k : NoticeKind) (c : Channel) :
    (s.withdrawNotice k c).sn.outstanding = s.outstandingWithout k c := by rw [withdrawNotice_eq]
@[simp] theorem withdrawNotice_schedules (s : State) (k : NoticeKind) (c : Channel) :
    (s.withdrawNotice k c).sn.schedules = s.sn.schedules := by rw [withdrawNotice_eq]
@[simp] theorem dropCut_cp (s : State) (c : Channel) : (s.dropCut c).cp = s.cp := by rw [dropCut_eq]
@[simp] theorem dropCut_du (s : State) (c : Channel) : (s.dropCut c).du = s.du := by rw [dropCut_eq]
@[simp] theorem dropCut_due (s : State) (c : Channel) : (s.dropCut c).due = s.due := by rw [dropCut_eq]
@[simp] theorem dropCut_slots (s : State) (c : Channel) : (s.dropCut c).sn.slots = s.sn.slots := by rw [dropCut_eq]
@[simp] theorem dropCut_queue (s : State) (c : Channel) : (s.dropCut c).sn.queue = s.queueWithout .cut c := by
  rw [dropCut_eq]
@[simp] theorem dropCut_outstanding (s : State) (c : Channel) :
    (s.dropCut c).sn.outstanding = s.outstandingWithout .cut c := by rw [dropCut_eq]
@[simp] theorem dropCut_schedules (s : State) (c : Channel) :
    (s.dropCut c).sn.schedules = Assoc.drop s.sn.schedules c := by rw [dropCut_eq]

theorem queueWithout_of_queue {s t : State} (h : t.sn.queue = s.sn.queue) (k : NoticeKind) (c : Channel) :
    t.queueWithout k c = s.queueWithout k c := by unfold queueWithout; rw [h]
theorem outstandingWithout_of_outstanding {s t : State} (h : t.sn.outstanding = s.sn.outstanding) (k : NoticeKind)
    (c : Channel) : t.outstandingWithout k c = s.outstandingWithout k c := by unfold outstandingWithout; rw [h]

/-- `raise_du_eq`, under the name that fits the other fields. -/
theorem raise_du_raised (s : State) (k : EventKind) (c : Channel) : (s.raise k c).du = s.du.raised k c :=
  raise_du_eq s k c

/-! ## The reply of a header -/

/-- With no notice outstanding a reply is ignored (R94). -/
theorem takeReply_of_none (r : Option ReplyField) {s : State} (h : s.sn.outstanding = none) : s.takeReply r = s := by
  unfold State.takeReply; rw [h]; cases r <;> rfl

/-- Due steps that are no JOIN_FAILED and no CUT_FAILED wait in their order. -/
theorem takeReplyClaim_foldl {front : List Due} (t : State)
    (h : ∀ x ∈ front, (∀ c, x ≠ .joinFailed c) ∧ ∀ c n, x ≠ .cutFailed c n) :
    front.foldl State.takeReplyClaim t = { t with due := t.due ++ front } := by
  induction front generalizing t with
  | nil => simp
  | cons x xs ih =>
    have hx : State.takeReplyClaim t x = t.addDue x := by
      have := h x (by simp)
      cases x <;> first | rfl | exact absurd rfl (this.1 _) | exact absurd rfl (this.2 _ _)
    rw [List.foldl_cons, hx, ih _ (fun y hy => h y (by simp [hy]))]
    simp [State.addDue]

/-! ## The claims -/

/-- Join failed and join timeout (R31). -/
theorem endJoin_spec (s : State) (c : Channel) (event : EventKind) :
    let r := s.channel c
    let t := s.endJoin c event
    t.channel c = { r.moved .enrolled .pass .pass .none with slot := none, context := none, lag := 0 } ∧
    keepsOtherChannels c s t ∧ contextFreed r.context s t ∧ slotFreed r.slot s t ∧
    t.cp.queue = s.cp.queue ++ [c] ∧ t.sn.queue = s.queueWithout .join c ∧
    t.sn.outstanding = s.outstandingWithout .join c ∧ t.sn.schedules = s.sn.schedules ∧
    t.du = s.du.raised event c ∧ t.claimFrame = s.claimFrame ∧ t.due = s.due := by
  intro r t
  have hf := handBack_freed s c
  have hsf := releaseSlotOf_freed ((s.handBack c).withdrawNotice .join c) c
  simp only [channel_withdrawNotice, channel_handBack_same] at hsf
  refine ⟨?_, ?_, ?_, ?_, ?_, ?_, ?_, ?_, ?_, ?_, ?_⟩
  · simp [t, endJoin, r, ChannelRecord.enter, ChannelRecord.moved, Phase.route]
  · intro d h
    simp [t, endJoin, channel_modChannel_other _ _ h, channel_releaseSlotOf_other _ h, channel_handBack_other _ h]
  · constructor
    · intro j hj; simp [t, endJoin]; exact hf.1 j hj
    · intro j hj; simp [t, endJoin]; exact hf.2 j hj
  · constructor
    · intro j hj; simp [t, endJoin]; have := hsf.1 j hj; simpa using this
    · intro j hj; simp [t, endJoin]; have := hsf.2 j hj; simpa using this
  · simp [t, endJoin, enqueueProof]
  · simp [t, endJoin]; exact queueWithout_of_queue (by simp) _ _
  · simp [t, endJoin]; exact outstandingWithout_of_outstanding (by simp) _ _
  · simp [t, endJoin]
  · simp [t, endJoin, raise_du_raised]
  · simp [t, endJoin]
  · simp [t, endJoin]

/-- Peer left and orphaned (R42). -/
theorem claimGone_spec {s u : State} {c : Channel} {n : SlotNo} {k : EventKind} (hu : s.claimGone c n k = some u) :
    let r := s.channel c
    r.phase.inGroup = true ∧ r.slot = some n ∧
    u.channel c = { r.moved .enrolled .pass .pass .none with
      slot := none, context := none, lag := 0, collapsed := false } ∧ keepsOtherChannels c s u ∧
    contextFreed r.context s u ∧ slotFreed (some n) s u ∧
    u.cp.queue = (if r.phase = .fallen then s.cp.queue.filter fun x => decide (x ≠ c) else s.cp.queue) ++ [c] ∧
    u.sn.queue = s.queueWithout .cut c ∧ u.sn.outstanding = s.outstandingWithout .cut c ∧
    scheduleCancelled c s u ∧ u.du = s.du.raised k c ∧ u.claimFrame = s.claimFrame ∧ u.due = s.due := by
  intro r
  simp only [claimGone] at hu
  split at hu
  · rename_i hv
    obtain ⟨hg, hs⟩ := hv
    have hf := handBack_freed s c
    have hsf := releaseSlotOf_freed (s.handBack c) c
    have hcs := dropCut_cancelled ((s.handBack c).releaseSlotOf c) c
    simp only [channel_handBack_same, hs] at hsf
    simp only [Option.some.injEq] at hu
    subst hu
    refine ⟨hg, hs, ?_⟩
    by_cases hp : (s.channel c).phase = .fallen
    all_goals
      simp only [hp, if_true, if_false]
      refine ⟨?_, ?_, ?_, ?_, ?_, ?_, ?_, ?_, ?_, ?_, ?_⟩
      · simp [r, ChannelRecord.enter, ChannelRecord.moved, Phase.route]
      · intro d h
        simp [channel_modChannel_other _ _ h, channel_releaseSlotOf_other _ h, channel_handBack_other _ h]
      · constructor
        · intro j hj; simp; exact hf.1 j hj
        · intro j hj; simp; exact hf.2 j hj
      · constructor
        · intro j hj; simp; have := hsf.1 j hj; simpa using this
        · intro j hj; simp; have := hsf.2 j hj; simpa using this
      · simp [enqueueProof, r, hp, dequeueProof]
      · simp; exact queueWithout_of_queue (by simp) _ _
      · simp; exact outstandingWithout_of_outstanding (by simp) _ _
      · simpa [scheduleCancelled] using hcs
      · simp [raise_du_raised]
      · simp
      · simp
  · cases hu

/-- Proof failure (R32). -/
theorem claimProofFailure_spec {s u : State} {c : Channel} {k : CtxNo} (hu : s.claimProofFailure c k = some u) :
    let r := s.channel c
    r.phase = .shadow ∧ r.context = some k ∧
    u.channel c = { r.moved .enrolled .pass .pass .none with slot := none, context := none, lag := 0 } ∧
    keepsOtherChannels c s u ∧ contextFreed (some k) s u ∧ slotFreed r.slot s u ∧
    u.cp.queue = s.cp.queue ++ [c] ∧ u.sn.queue = s.sn.queue ∧ u.sn.outstanding = s.sn.outstanding ∧
    u.sn.schedules = s.sn.schedules ∧ u.du = s.du.raised .proveFailed c ∧ u.claimFrame = s.claimFrame ∧
    u.due = s.due := by
  intro r
  simp only [claimProofFailure] at hu
  split at hu
  · rename_i hv
    obtain ⟨hg, hs⟩ := hv
    have hf := handBack_freed s c
    rw [hs] at hf
    have hsf := releaseSlotOf_freed (s.handBack c) c
    simp only [channel_handBack_same] at hsf
    simp only [Option.some.injEq] at hu
    subst hu
    refine ⟨hg, hs, ?_, ?_, ?_, ?_, ?_, ?_, ?_, ?_, ?_, ?_, ?_⟩
    · simp [r, ChannelRecord.enter, ChannelRecord.moved, Phase.route]
    · intro d h
      simp [channel_modChannel_other _ _ h, channel_releaseSlotOf_other _ h, channel_handBack_other _ h]
    · constructor
      · intro j hj; simp; exact hf.1 j hj
      · intro j hj; simp; exact hf.2 j hj
    · constructor
      · intro j hj; simp; have := hsf.1 j hj; simpa using this
      · intro j hj; simp; have := hsf.2 j hj; simpa using this
    · simp [enqueueProof]
    · simp
    · simp
    · simp
    · simp [raise_du_raised]
    · simp
    · simp
  · cases hu

/-- Demotion (R33, R61). -/
theorem claimDemotion_spec {s u : State} {c : Channel} {k : CtxNo} (hu : s.claimDemotion c k = some u) :
    let r := s.channel c
    (r.phase = .proven ∨ r.phase = .cutting) ∧ r.context = some k ∧
    u.channel c = { r.moved .shadow .pass .pass .shadow with lag := 0 } ∧ keepsOtherChannels c s u ∧
    (∀ x, s.context k = some x → u.context k = some x.restart) ∧ keepsOtherContexts (some k) s u ∧
    u.cp.queue = s.cp.queue ∧ u.sn.slots = s.sn.slots ∧ (r.phase = .proven → u.sn = s.sn) ∧
    (r.phase = .cutting → u.sn.queue = s.queueWithout .cut c ∧ u.sn.outstanding = s.outstandingWithout .cut c ∧
      scheduleCancelled c s u) ∧
    u.du = s.du.raised .demoted c ∧ u.claimFrame = s.claimFrame ∧ u.due = s.due := by
  intro r
  simp only [claimDemotion] at hu
  split at hu
  · rename_i hv
    obtain ⟨hg, hs⟩ := hv
    simp only [Option.some.injEq] at hu
    subst hu
    refine ⟨hg, hs, ?_⟩
    have hk : ∀ x, s.context k = some x →
        ((s.modChannel c fun r => { r.enter .shadow with lag := 0 }).modContext k Context.restart).context k =
          some x.restart := fun x h => context_modContext_same _ h
    have ho : ∀ j, some j ≠ some k →
        ((s.modChannel c fun r => { r.enter .shadow with lag := 0 }).modContext k Context.restart).context j =
          s.context j := fun j h => context_modContext_other _ _ (fun e => h (by rw [e]))
    have hcs := dropCut_cancelled
      ((s.modChannel c fun r => { r.enter .shadow with lag := 0 }).modContext k Context.restart) c
    by_cases hp : (s.channel c).phase = .cutting
    · simp only [hp, if_true]
      refine ⟨?_, ?_, ?_, ?_, ?_, ?_, ?_, ?_, ?_, ?_, ?_⟩
      · simp [r, ChannelRecord.enter, ChannelRecord.moved, Phase.route]
      · intro d h; simp [channel_modChannel_other _ _ h]
      · intro x h; simp only [context_raise, context_dropCut]; exact hk x h
      · intro j h; simp only [context_raise, context_dropCut]; exact ho j h
      · simp
      · simp
      · intro h; simp [r, hp] at h
      · intro _
        refine ⟨?_, ?_, ?_⟩
        · simp; exact queueWithout_of_queue (by simp) _ _
        · simp; exact outstandingWithout_of_outstanding (by simp) _ _
        · simpa [scheduleCancelled] using hcs
      · simp [raise_du_raised]
      · simp
      · simp
    · simp only [hp, if_false]
      refine ⟨?_, ?_, ?_, ?_, ?_, ?_, ?_, ?_, ?_, ?_, ?_⟩
      · simp [r, ChannelRecord.enter, ChannelRecord.moved, Phase.route]
      · intro d h; simp [channel_modChannel_other _ _ h]
      · intro x h; simp only [context_raise]; exact hk x h
      · intro j h; simp only [context_raise]; exact ho j h
      · simp
      · simp
      · intro _; simp
      · intro h; exact absurd h hp
      · simp [raise_du_raised]
      · simp
      · simp
  · cases hu

/-- Leave resolved (R42). -/
theorem claimLeaveResolved_spec {s u : State} {c : Channel} {n : SlotNo} {barred : Bool}
    (hu : s.claimLeaveResolved c n barred = some u) :
    let r := s.channel c
    r.phase = .leaving ∧ r.slot = some n ∧
    u.channel c = { r.moved .copper .pass .pass .none with slot := none, label := none } ∧
    keepsOtherChannels c s u ∧ u.cp = s.cp ∧
    u.slot n = (if barred = true then (s.slot n).bar (2 * s.sc.params.orphanFrames) else (s.slot n).freed) ∧
    keepsOtherSlots (some n) s u ∧ u.sn.queue = s.queueWithout .leave c ∧
    u.sn.outstanding = s.outstandingWithout .leave c ∧ u.sn.schedules = s.sn.schedules ∧
    u.du = s.du.raised .left c ∧ u.claimFrame = s.claimFrame ∧ u.due = s.due := by
  intro r
  simp only [claimLeaveResolved] at hu
  split at hu
  · rename_i hv
    obtain ⟨hg, hs⟩ := hv
    simp only [Option.some.injEq] at hu
    subst hu
    have hsc : (s.withdrawNotice .leave c).sc = s.sc := by rw [withdrawNotice_eq]
    refine ⟨hg, hs, ?_⟩
    cases barred
    all_goals
      simp only [if_true, Bool.false_eq_true, if_false]
      refine ⟨?_, ?_, ?_, ?_, ?_, ?_, ?_, ?_, ?_, ?_, ?_⟩
      · simp [r, freeSlot, barSlot, ChannelRecord.enter, ChannelRecord.moved, Phase.route]
      · intro d h; simp [channel_modChannel_other _ _ h, freeSlot, barSlot]
      · simp [freeSlot, barSlot]
      · simp [freeSlot, barSlot, slot_modSlot_same, hsc]; try rfl
      · intro m hm
        have hmn : m ≠ n := fun e => hm (by rw [e])
        simp [freeSlot, barSlot, slot_modSlot_other _ _ hmn]
      · simp [freeSlot, barSlot]
      · simp [freeSlot, barSlot]
      · simp [freeSlot, barSlot]
      · simp [raise_du_raised, freeSlot, barSlot]
      · simp [freeSlot, barSlot]
      · simp [freeSlot, barSlot]
  · cases hu

end Sys2Proof.Machine.State
end

