-- ==== Sys2Proof/Laws/Line.lean ====
section
/-! SUPPORT. The transfers of the I2C line: their bytes, what a missing acknowledge leaves of one, and what a part reset
leaves of one. -/

namespace Sys2Proof.Machine

/-- The two bytes of a memory address, as the statements write them. -/
theorem addressBytes_eq (a : Nat) : addressBytes a = [BitVec.ofNat 8 (a / 256), BitVec.ofNat 8 a] := by
  have upper : upperByte (BitVec.ofNat 16 a) = BitVec.ofNat 8 (a / 256) := by
    apply BitVec.eq_of_toNat_eq
    simp only [upperByte, BitVec.extractLsb'_toNat, BitVec.toNat_ofNat, Nat.shiftRight_eq_div_pow]
    omega
  have lower : lowerByte (BitVec.ofNat 16 a) = BitVec.ofNat 8 a := by
    apply BitVec.eq_of_toNat_eq
    simp only [lowerByte, BitVec.extractLsb'_toNat, BitVec.toNat_ofNat, Nat.shiftRight_zero]
    omega
  rw [addressBytes, wordBytes, upper, lower]

/-- Bytes read, each acknowledged but the last. -/
theorem receiveAll_succ (n : Nat) : receiveAll (n + 1) = List.replicate n (.receive true) ++ [.receive false] := by
  induction n with
  | zero => rfl
  | succ n ih => rw [receiveAll, ih]; rfl

/-- A transfer of the load, byte by byte. -/
theorem loadTransfer_eq (a : Nat) : loadTransfer a =
    [.start, .send 0xA0#8, .send (BitVec.ofNat 8 (a / 256)), .send (BitVec.ofNat 8 a), .repeatedStart, .send 0xA1#8] ++
      List.replicate 63 (.receive true) ++ [.receive false, .stop] := by
  rw [loadTransfer, addressBytes_eq, receiveAll_succ]; simp [sendAll, deviceWrite, deviceRead]

/-- The page write, byte by byte. -/
theorem pageWriteLine_eq (n : SlotNo) (bytes : List Byte) : pageWriteLine n bytes =
    [.start] ++ ([0xA0#8, BitVec.ofNat 8 (recordAddress n / 256), BitVec.ofNat 8 (recordAddress n)] ++ bytes).map
      LineEvent.send ++ [.stop] := by
  simp [pageWriteLine, sendAll, addressBytes_eq, deviceWrite]

/-- The read-back, byte by byte. -/
theorem readBackLine_eq (n : SlotNo) : readBackLine n =
    [.send (BitVec.ofNat 8 (recordAddress n / 256)), .send (BitVec.ofNat 8 (recordAddress n)), .repeatedStart,
      .send 0xA1#8] ++ List.replicate 7 (.receive true) ++ [.receive false, .stop] := by
  rw [readBackLine, addressBytes_eq, receiveAll_succ]; simp [sendAll, deviceRead]

theorem stop_not_mem_sendAll (bytes : List Byte) : LineEvent.stop ∉ sendAll bytes := by simp [sendAll]

theorem stop_not_mem_receiveAll (n : Nat) : LineEvent.stop ∉ receiveAll n := by
  cases n with
  | zero => simp [receiveAll]
  | succ n => rw [receiveAll_succ]; simp

/-! ## A transfer that is cut off -/

/-- The byte that is not acknowledged is the last that SC has sent. -/
theorem cutOff_byte {transfer : List LineEvent} {place : Nat} {b : Byte} (h : transfer[place]? = some (.send b)) :
    cutOff ⟨.byteNotAcknowledged, place⟩ transfer = some (transfer.take place ++ [.send b]) := by
  simp [cutOff, h, List.take_add_one]

theorem cutOff_no_byte {transfer : List LineEvent} {place : Nat} (h : ∀ b, transfer[place]? ≠ some (.send b)) :
    cutOff ⟨.byteNotAcknowledged, place⟩ transfer = none := by
  unfold cutOff
  dsimp only
  split <;> simp_all

theorem cutOff_clock {transfer : List LineEvent} {place : Nat} {e : LineEvent} (h : transfer[place]? = some e)
    (start : e ≠ .start) : cutOff ⟨.clockHeldLow, place⟩ transfer = some (transfer.take place) := by
  simp [cutOff, h, start]

theorem cutOff_no_clock {transfer : List LineEvent} {place : Nat}
    (h : transfer[place]? = none ∨ transfer[place]? = some .start) : cutOff ⟨.clockHeldLow, place⟩ transfer = none := by
  rcases h with h | h <;> simp [cutOff, h]

theorem cutOff_data {transfer : List LineEvent} {place : Nat}
    (h : transfer[place]? = some .start ∨ transfer[place]? = some .repeatedStart) :
    cutOff ⟨.dataHeldLow, place⟩ transfer = some (transfer.take place) := by
  rcases h with h | h <;> simp [cutOff, h]

theorem cutOff_no_data {transfer : List LineEvent} {place : Nat} (h : transfer[place]? ≠ some .start)
    (h' : transfer[place]? ≠ some .repeatedStart) : cutOff ⟨.dataHeldLow, place⟩ transfer = none := by
  unfold cutOff
  dsimp only
  split <;> simp_all

/-- A transfer ends with its only stop condition, so a transfer cut off before its end has none. -/
theorem stop_not_mem_dropLast_transfer (s : State) : LineEvent.stop ∉ s.transfer.dropLast := by
  have load (a : Nat) : LineEvent.stop ∉ (loadTransfer a).dropLast := by
    rw [loadTransfer, List.dropLast_concat]; simp [stop_not_mem_sendAll, stop_not_mem_receiveAll]
  have page (n : SlotNo) (bytes : List Byte) : LineEvent.stop ∉ (pageWriteLine n bytes).dropLast := by
    rw [pageWriteLine, List.dropLast_concat]; simp [stop_not_mem_sendAll]
  have back (n : SlotNo) : LineEvent.stop ∉ (readBackLine n).dropLast := by
    rw [readBackLine, List.dropLast_concat]; simp [stop_not_mem_sendAll, stop_not_mem_receiveAll]
  unfold State.transfer LoadStage.transfer Flight.transfer
  repeat' split
  all_goals first
    | exact load _
    | exact page _ _
    | exact back _
    | decide

/-- What a part reset leaves of the transfer that it cuts off has no stop condition (R150). -/
theorem stop_not_mem_cut_transfer (s : State) (place : Nat) :
    LineEvent.stop ∉ s.transfer.dropLast.take place ++ releaseLine := by
  intro h
  rcases List.mem_append.mp h with h | h
  · exact stop_not_mem_dropLast_transfer s (List.mem_of_mem_take h)
  · exact absurd h (by decide)

/-! ## The store at a point of a transfer -/

/-- Before the store has acknowledged its address it is as it was. -/
theorem storeAt_of_lt {s : State} {place : Nat} (h : place < 2) : s.storeAt place = s.store := by
  unfold State.storeAt
  split
  · rfl
  · exact if_neg (by omega)

/-- In the other stages of a write, and without one, the store is as it was. -/
theorem storeAt_of_no_page {s : State} (place : Nat) (h : s.flightIn .program = none) : s.storeAt place = s.store := by
  unfold State.storeAt; rw [h]

/-- A page write whose address the store has acknowledged finds an earlier page finished. -/
theorem storeAt_of_page {s : State} {place : Nat} {f : Flight} (h : s.flightIn .program = some f) (answered : 2 ≤ place) :
    s.storeAt place = s.store.commit := by
  unfold State.storeAt; rw [h]; exact if_pos answered

/-- With no page being programmed the store is as it was. -/
theorem storeAt_of_idle {s : State} (place : Nat) (h : s.store.programming = none) : s.storeAt place = s.store := by
  have idle : s.store.commit = s.store := by unfold RetirementStore.commit; rw [h]
  unfold State.storeAt
  split
  · rfl
  · split
    · exact idle
    · rfl

/-- The store keeps its canonical form. -/
theorem wf_storeAt {s : State} (place : Nat) (h : Memory.wf s.store.cells = true) :
    Memory.wf (s.storeAt place).cells = true := by
  unfold State.storeAt
  split
  · exact h
  · split
    · exact wf_commit h
    · exact h

/-! ## MISSING_ACK -/

/-- MISSING_ACK with no own step due. -/
theorem exec_missingAck {s : State} (h : s.due = []) (fault : MissingAck) :
    exec (.missingAck fault) s = .next (s.missingAck fault) := by
  show Host.Outcome.next (s.settled.missingAck fault) = _
  rw [settled_of_due_nil h]

/-- A missing acknowledge at no point of the transfer changes nothing. -/
theorem missingAck_of_no_point {s : State} {fault : MissingAck} (h : cutOff fault s.transfer = none) :
    s.missingAck fault = s := by
  unfold State.missingAck; rw [h]

/-- A missing acknowledge while the part loads. -/
theorem missingAck_loading {s : State} {fault : MissingAck} {sent : List LineEvent}
    (h : cutOff fault s.transfer = some sent) (part : s.part = .loading) :
    s.missingAck fault = s.loadMissingAck fault.cause sent := by
  unfold State.missingAck; rw [h, part]

/-- A missing acknowledge in a write. -/
theorem missingAck_running {s : State} {fault : MissingAck} {sent : List LineEvent} {f : Flight}
    (h : cutOff fault s.transfer = some sent) (part : s.part = .running) (flight : s.sc.flight = some f) :
    s.missingAck fault = State.writeMissingAck { s with store := s.storeAt fault.place } f sent := by
  unfold State.missingAck; rw [h, part, flight]

/-- A write verifies exactly where the store holds the record written and the line disturbs none of its bits. -/
theorem readBack_eq_iff (s : State) (n : SlotNo) (written : List Byte) (disturbed : BitVec 64) :
    s.readBack n written disturbed = written ↔
      s.store.cells.readBytes (64 + 8 * n.val) 8 = written ∧ invertBits written disturbed = written := by
  unfold State.readBack
  change (if s.store.cells.readBytes (64 + 8 * n.val) 8 = written then _ else _) = written ↔ _
  split
  · rename_i h; simp only [recordAddress] at *; rw [h]; simp
  · rename_i h; exact ⟨fun e => absurd e h, fun e => absurd e.1 h⟩

end Sys2Proof.Machine
end

