-- ==== Sys2Proof/Laws/Report.lean ====
section
/-! SUPPORT. What the parts of a report can do (R89): the walk over the slots, and the heard claims. -/

namespace Sys2Proof.Machine

/-! ## The heard claims -/

/-- A heard claim changes the channel map and the events alone. -/
theorem hear_rest (s : State) (n : SlotNo) : { s.hear n with cm := s.cm, du := s.du } = s := by
  unfold State.hear
  split
  · rfl
  · unfold State.claimHeard
    dsimp only
    split
    · simp only [Option.getD_some]
      split
      · simp only [raise_eq]; rfl
      · rfl
    · rfl

@[simp] theorem hear_due (s : State) (n : SlotNo) : (s.hear n).due = s.due := congrArg (fun u => u.due) (hear_rest s n)
@[simp] theorem hear_sn (s : State) (n : SlotNo) : (s.hear n).sn = s.sn := congrArg (fun u => u.sn) (hear_rest s n)
@[simp] theorem hear_cp (s : State) (n : SlotNo) : (s.hear n).cp = s.cp := congrArg (fun u => u.cp) (hear_rest s n)

/-- With no heard claim at the head of the due steps none is taken. -/
theorem takeHeard_of_head {s : State} (h : ∀ n rest, s.due ≠ .heard n :: rest) : s.takeHeard = s := by
  unfold State.takeHeard
  generalize hd : s.due = l at h
  cases l with
  | nil => rfl
  | cons d rest => cases d <;> first | rfl | exact absurd rfl (h _ rest)

/-- A heard claim at the head is taken, and then those behind it. -/
theorem takeHeard_cons {s : State} {n : SlotNo} {rest : List Due} (h : s.due = .heard n :: rest) :
    s.takeHeard = (State.hear { s with due := rest } n).takeHeard := by
  unfold State.takeHeard
  rw [h, hear_due]
  rfl

/-- Heard claims taken from a list change the channel map, the events and the due steps alone. -/
theorem takeHeardFrom_rest (l : List Due) (s : State) :
    { State.takeHeardFrom l s with cm := s.cm, du := s.du, due := s.due } = s := by
  induction l generalizing s with
  | nil => rfl
  | cons d rest ih =>
    cases d
    case heard n =>
      have h := ih (State.hear { s with due := rest } n)
      have e := hear_rest { s with due := rest } n
      unfold State.takeHeardFrom
      generalize State.takeHeardFrom rest _ = v at h ⊢
      generalize State.hear _ n = u at h e
      cases v; cases u; cases s; simp_all
    all_goals rfl

theorem takeHeard_rest (s : State) : { s.takeHeard with cm := s.cm, du := s.du, due := s.due } = s :=
  takeHeardFrom_rest _ s

/-! ## The walk over the slots -/

/-- What every test of a walk keeps, the walk keeps. -/
theorem eachSlot_keeps {β : Type} (g : State → β) {test : State → SlotNo → Channel → Option ArrivalKind → State}
    (h : ∀ s n c k, g (test s n c k) = g s) (s : State) (named : Assoc SlotNo ArrivalKind) :
    g (s.eachSlot named test) = g s := by
  unfold State.eachSlot
  generalize Assoc.keys s.sn.slots = l
  induction l generalizing s with
  | nil => rfl
  | cons n t ih =>
    rw [List.foldl_cons, ih]
    unfold State.onSlot
    dsimp only
    split
    · exact h _ _ _ _
    · rfl

/-- The steps of a report change the slot entries alone. -/
theorem stepTest_rest (s : State) (n : SlotNo) (c : Channel) (k : Option ArrivalKind) :
    { s.stepTest n c k with sn := { (s.stepTest n c k).sn with slots := s.sn.slots } } = s := rfl

/-- The peer-shadow, orphan and heard tests of a report only bring steps due. -/
theorem shadowTest_rest (s : State) (n : SlotNo) (c : Channel) (k : Option ArrivalKind) :
    { s.shadowTest n c k with due := s.due } = s := by unfold State.shadowTest; split <;> rfl
theorem silenceTest_rest (s : State) (n : SlotNo) (c : Channel) (k : Option ArrivalKind) :
    { s.silenceTest n c k with due := s.due } = s := by unfold State.silenceTest; dsimp only; split <;> rfl
theorem heardTest_rest (s : State) (n : SlotNo) (c : Channel) (k : Option ArrivalKind) :
    { s.heardTest n c k with due := s.due } = s := by unfold State.heardTest; split <;> rfl

end Sys2Proof.Machine
end

