-- ==== Sys2Proof/WellFormed.lean ====
section
/-! DEFINITION. When a command is an instance of its row. -/

namespace Sys2Proof

/-- A directive code of the table of R154, 1 to 9. -/
def knownCode (code : BitVec 4) : Bool := 1 ≤ code.toNat && code.toNat ≤ 9

/-- A D0 write is a row of a named directive when its code is 1 to 9, and UNKNOWN_DIRECTIVE_CODE otherwise: so that
row's code must lie outside 1 to 9. Every other operand is admitted at every value of its type: an access is treated
by its own address (R3, R4), a unit of any bytes may arrive (R72), and the part's own steps are taken only when due. -/
def Instr.wf : Instr → Bool
  | .partReset _ => true
  | .resetEnd => true
  | .fmark _ _ => true
  | .holdoverEntry _ => true
  | .holdoverBoundary _ => true
  | .contextAssign => true
  | .noticeOutstanding => true
  | .joinTimeout _ _ => true
  | .retryGapEnd _ _ => true
  | .barClockExpiry _ => true
  | .cutDue _ _ => true
  | .followCut _ _ => true
  | .guardEnd _ => true
  | .slotSilent _ => true
  | .linkDown => true
  | .huntLoss => true
  | .linkUp => true
  | .orphanTest _ => true
  | .peerShadow _ => true
  | .proofSuccess _ _ _ => true
  | .proofFailure _ _ => true
  | .demotion _ _ => true
  | .cutFailed _ _ => true
  | .joinFailed _ => true
  | .frameSent => true
  | .noticeExpiry _ => true
  | .incomingSampleWrite _ _ => true
  | .routeRead _ _ => true
  | .sampleRead _ _ => true
  | .plainAccess _ => true
  | .enrol _ _ _ _ => true
  | .cutChannel _ _ _ _ => true
  | .retireChannel _ _ _ _ => true
  | .recallChannel _ _ _ _ => true
  | .withdrawChannel _ _ _ _ => true
  | .inspect _ _ _ _ => true
  | .slotview _ _ _ _ => true
  | .setParameter _ _ _ _ => true
  | .abandon _ _ _ _ => true
  | .unknownDirectiveCode _ code _ _ _ => !knownCode code
  | .directiveRun => true
  | .parameterLatchWrite _ _ => true
  | .attentionMaskWrite _ _ => true
  | .directiveWriteOther _ _ => true
  | .rp0Read _ _ => true
  | .rp6Read _ _ => true
  | .rp7Read _ _ => true
  | .rp8Read _ _ => true
  | .frameArrival _ => true
  | .storeWriteStart => true
  | .pageWriteEnd => true
  | .storePoll _ => true
  | .pollTimeout => true
  | .storeVerify _ => true
  | .missingAck _ => true
  | .reinstatementRetry => true
  | .loaderPoll _ => true
  | .loadPollTimeout => true
  | .headerRead => true
  | .recordTransfer => true

end Sys2Proof
end

