-- ==== Sys2Proof/Tests/Slice0.lean ====
section
/-! SUPPORT. The implementer's own tests: the ill-formed term, the spec's worked examples, one-step tests on small states,
and for each obligation a state and operands that meet its hypotheses. -/

-- Each `decide +kernel` waits on the kernel; elaborated at once they would hold one thread each.
set_option Elab.async false

namespace Sys2Proof.Tests

open Sys2Proof.Machine

/-! ## The ill-formed term -/

theorem test_unknown_code_3_is_ill_formed : (Instr.unknownDirectiveCode 0 3 0 false false).wf = false := by decide
theorem test_unknown_codes_0_and_10_are_well_formed :
    (Instr.unknownDirectiveCode 0 0 0 false false).wf = true ∧
    (Instr.unknownDirectiveCode 0 10 0 false false).wf = true := by decide

/-! ## The spec's worked examples (chapter 11) -/

theorem test_parity_of_2944h : freshParity 0x2944#16 = ⟨0x2944#16, true, false⟩ := by decide
theorem test_crc_of_31h_to_39h :
    crc [0x31#8, 0x32#8, 0x33#8, 0x34#8, 0x35#8, 0x36#8, 0x37#8, 0x38#8, 0x39#8] = 0x29B1#16 := by decide +kernel
theorem test_record_of_slot_7 :
    recordBytes ⟨7, 0x96A#12, true, false, false⟩ = [0x01#8, 0xE0#8, 0x09#8, 0x6A#8, 0xAB#8] := by decide +kernel
theorem test_retired_record_of_slot_7 :
    retiredRecord ⟨.retire, 1200, 7, 3310, 0x1D5#12⟩ =
      [0xA7#8, 0x04#8, 0xB0#8, 0x0C#8, 0xEE#8, 0x01#8, 0xD5#8, 0xCE#8] := by decide +kernel
theorem test_void_record_of_slot_7 :
    voidRecord ⟨.retire, 1200, 7, 3310, 0x1D5#12⟩ =
      [0x00#8, 0x04#8, 0xB0#8, 0x0C#8, 0xEE#8, 0x01#8, 0xD5#8, 0x75#8] := by decide +kernel
theorem test_record_copied_to_slot_8_fails :
    recordCheckGood 8 (retiredRecord ⟨.retire, 1200, 7, 3310, 0x1D5#12⟩) = false := by decide +kernel
theorem test_restored_record_of_slot_12 :
    readRetired 12 (retiredRecord ⟨.retire, 517, 12, 2305, 0x1D5#12⟩) = some ⟨517, 2305, 0x1D5#12⟩ := by decide +kernel

/-! ## Small states -/

/-- What a step leaves. -/
def out (o : Host.Outcome State Fault Refusal) : State :=
  match o with
  | .next t => t
  | .fault f => nomatch f
  | .refused _ => .reset

/-- The bases of the examples: S, T and A one after another. -/
def bases : Bases := ⟨0, 4096, 6144⟩

/-- A part in RUNNING at LEAD with nothing under migration. -/
def quietPart : State :=
  { State.reset with
    part := .running
    bi := ⟨some bases, none, []⟩
    cl := { State.reset.cl with role := some .lead }
    sc := { State.reset.sc with loader := .done } }

/-- A channel record in a phase, with every field that some phase needs. -/
def recordIn (p : Phase) : ChannelRecord :=
  { phase := p, label := some 9, idle := some 0x1D5#12, slot := some 7, context := some 3, lag := 2,
    collapsed := false, cause := none, origin := none, pending := p.route, active := p.route }

/-- A context of channel 5 that has seen a copper word. -/
def someContext : Context := { Context.fresh 5 with lastCopper := some 0x155#12 }

/-- Channel 5 in a phase, with context 3 and slot 7 in a state, the link UP. -/
def channelIn (p : Phase) (e : SlotState) : State :=
  { quietPart with
    bi := ⟨some bases, none, [(5, FibreRegister.start 0x9AA#12)]⟩
    cm := [(5, recordIn p)]
    cp := ⟨[(3, someContext)], []⟩
    cl := { quietPart.cl with link := .up }
    sn := { quietPart.sn with slots := [(7, { SlotEntry.reset with state := e, channel := some 5 })] } }

/-- The same with an own step due. -/
def dueIn (p : Phase) (e : SlotState) (d : Due) : State := { channelIn p e with due := [d] }

/-- A directive with its code and D1. -/
def directive (code : BitVec 4) (d1 d2 : Word) : Directive :=
  ⟨code, false, 9, ⟨⟨d1, false⟩, ⟨d2, false⟩, ⟨700, false⟩, ⟨0, false⟩⟩, none⟩

/-- A state with a directive in progress. -/
def running (s : State) (d : Directive) : State := { s with du := { s.du with inProgress := some d } }

/-- A CUT of channel 5 outstanding. -/
def outstandingOf (k : NoticeKind) : Outstanding := ⟨k, 4, 5, 7, 9, 24, 0, none, false⟩

/-- A write request of channel 5. -/
def request : WriteRequest := ⟨.retire, 5, 7, 9, 0x1D5#12⟩

/-- A state with a write in flight at a stage. -/
def writing (p : Phase) (x : Purpose) (g : Stage) : State :=
  { channelIn p .held with sc := { quietPart.sc with flight := some ⟨request, x, g⟩ } }

/-- One order of a boundary. -/
def order : BoundaryOrder := ⟨false, false, false, false, false⟩

/-- Every slot HELD. -/
def allHeld : Assoc SlotNo SlotEntry :=
  (List.finRange 1024).map fun n => (n, { SlotEntry.reset with state := .held, channel := some 5 })

theorem find_map {f : SlotNo → SlotEntry} (n : SlotNo) (l : List SlotNo) (h : n ∈ l) :
    Assoc.find (l.map fun m => (m, f m)) n = some (f n) := by
  induction l with
  | nil => cases h
  | cons a t ih =>
    simp only [List.map, Assoc.find]
    by_cases e : a = n
    · rw [if_pos e, e]
    · rw [if_neg e]
      exact ih ((List.mem_cons.1 h).resolve_left fun x => e x.symm)

theorem allHeld_held (n : SlotNo) :
    (State.slot { quietPart with sn := { quietPart.sn with slots := allHeld } } n).state = .held := by
  unfold State.slot allHeld
  rw [find_map n _ (List.mem_finRange n)]
  rfl

/-! ## One step -/

theorem test_step_takes_the_front : (out (step { State.reset with pending := [.resetEnd, .headerRead] })).pending =
    [.headerRead] := by decide +kernel
theorem test_power_on_leaves_loading : (out (exec (.partReset ⟨.powerOn, 0⟩) quietPart)).part = .loading := by decide +kernel
theorem test_first_mark_makes_boundary :
    (out (exec (.fmark 10 order) quietPart)).ft = ⟨1, .locked, 0, true⟩ := by decide +kernel
theorem test_holdover_entry_raises_mark_lost :
    (out (exec (.holdoverEntry order) quietPart)).du.events = [⟨.markLost, 0⟩] := by decide +kernel
theorem test_boundary_sends_a_frame_of_the_new_number :
    ((out (exec (.fmark 250 order) quietPart)).cl.sending.map CarrierFrame.number) = some 1 := by decide +kernel
theorem test_copper_passes_to_the_store :
    (out (exec (.incomingSampleWrite 5 ⟨0x2944#16, true, false⟩) quietPart)).ports.storeSide =
      some (.write .engine 5 ⟨0x2944#16, true, false⟩) := by decide +kernel
theorem test_fibre_word_replaces_copper :
    (out (exec (.incomingSampleWrite 5 ⟨0x2944#16, true, false⟩) (channelIn .carried .held))).ports.storeSide =
      some (.write .engine 5 (freshParity 0x29AA#16)) := by decide +kernel
theorem test_route_read_opens_pairing :
    (out (exec (.routeRead 4101 (freshParity 0xA805#16)) (channelIn .shadow .held))).bi.pairing =
      some ⟨5, 0xA#4, true, false⟩ := by decide +kernel
theorem test_cut_directive_queues_a_cut :
    (out (exec .directiveRun (running (channelIn .proven .held) (directive 2 5 0)))).sn.queue = [⟨.cut, 5⟩] := by
  decide +kernel
theorem test_set_places_prove_run :
    (out (exec .directiveRun (running quietPart (directive 8 1 8)))).sc.params.proveRun = 8 := by decide +kernel
theorem test_enrol_takes_two :
    (out (exec .directiveRun (running quietPart (directive 1 100 2)))).cp.queue = [100, 101] := by decide +kernel
theorem test_cut_due_carries :
    ((out (exec (.cutDue 5 7) (dueIn .cutting .held (.cutDue 5 7)))).channel 5).phase = .carried := by decide +kernel
theorem test_orphan_test_frees_the_slot :
    ((out (exec (.orphanTest 7) { dueIn .shadow .held (.orphanTest 7) with
      sn := { quietPart.sn with slots :=
        [(7, { SlotEntry.reset with state := .held, channel := some 5, orphanCount := 800 })] } })).slot 7).state =
      .free := by decide +kernel
theorem test_void_write_verified_returns_to_carried :
    ((out (exec (.storeVerify 0) { writing .retiring .target .verify with
      store := ⟨Memory.writeBytes [] 120 (writtenRecord request .target), none⟩ })).channel 5).phase = .retired := by
  decide +kernel
theorem test_page_write_ends_at_the_byte_not_acknowledged :
    (out (exec (.missingAck ⟨.byteNotAcknowledged, 2⟩) (writing .retiring .target .program))).ports.line =
      [.start, .send 0xA0#8, .send 0#8, .stop, .releaseData, .releaseClock] ∧
    (out (exec (.missingAck ⟨.byteNotAcknowledged, 2⟩) (writing .retiring .target .program))).sc.flight =
      some ⟨request, .reinstatement, .program⟩ := by decide +kernel
theorem test_acknowledged_address_shows_the_earlier_page_finished :
    let s : State := { writing .retiring .reinstatement .program with
      store := ⟨[], some (7, writtenRecord request .target)⟩ }
    (out (exec (.missingAck ⟨.byteNotAcknowledged, 1⟩) s)).store = s.store ∧
    (out (exec (.missingAck ⟨.byteNotAcknowledged, 2⟩) s)).store = s.store.commit := by decide +kernel
theorem test_unacknowledged_poll_releases_the_line :
    (out (exec (.storePoll .noAck) (writing .retiring .target .poll))).ports.line =
      (out (exec (.missingAck ⟨.byteNotAcknowledged, 1⟩) (writing .retiring .target .poll))).ports.line := by decide +kernel
theorem test_reset_cuts_the_page_write_off :
    (out (exec (.partReset ⟨.rst, 3⟩) (writing .retiring .target .program))).ports.line =
      [.start, .send 0xA0#8, .send 0#8, .releaseData, .releaseClock] := by decide +kernel
theorem test_frame_arrival_starts_hunting :
    (out (exec (.frameArrival (frameBytes ⟨8, .follow, ⟨none, 0, 0, 0, 0⟩, none, []⟩)) quietPart)).cl.link = .hunting := by
  decide +kernel

/-! ## Hypotheses met -/

theorem witness_StepRunsFrontCommand :
    ({ State.reset with pending := [.resetEnd] } : State).pending = Instr.resetEnd :: [] := rfl
theorem witness_EmptyQueueIdles : State.reset.pending = [] := rfl
theorem witness_OwnStepsActOnlyWhenDueAndKeepFrame :
    ownStep .linkDown = some .linkDown ∧ Due.linkDown ∉ quietPart.due ∧
    Due.linkDown ∈ (dueIn .carried .held .linkDown).due := by decide
theorem witness_OutsideCommandsMeetSettledState :
    (dueIn .cutting .held (.cutDue 5 7)).settled.due = [] ∧
    (busAccess (.plainAccess ⟨.engine, 9000, .write ⟨0, false, false⟩⟩)).isSome = true := by decide +kernel
theorem witness_OutsideCommands_due_steps :
    let s := dueIn .cutting .held (.cutDue 5 7)
    let h := dueIn .stranded .held (.heard 7)
    State.reset.due = [] ∧ s.due = [.cutDue 5 7] ∧ s.settlesWithin 65536 ∧ ownStep (.cutDue 5 7) = some (.cutDue 5 7) ∧
    h.due = [.heard 7] ∧ h.settlesWithin 65536 := by
  refine ⟨rfl, rfl, .inr (show State.settlesWithin 65535 _ from .inl ?_), rfl, rfl,
    .inr (show State.settlesWithin 65535 _ from .inl ?_)⟩ <;> decide +kernel
/-- A demotion that one boundary has left due is taken before the next, at which the cut falls due (R28): the channel is
in SHADOW with its schedule cancelled, whatever the order asks. -/
theorem test_no_claim_is_held_over_a_second_boundary :
    let s : State := { dueIn .cutting .held (.demotion 5 3) with
      sn := { (channelIn .cutting .held).sn with schedules := [(5, ⟨7, 2⟩)] } }
    let first := out (exec (.fmark 250 order) s)
    let second := out (exec (.fmark 250 order) first)
    Due.demotion 5 3 ∈ first.due ∧ Due.passed ∈ first.due ∧ (first.channel 5).phase = .cutting ∧
    (second.channel 5).phase = .shadow ∧ (second.channel 5).active = Phase.shadow.route ∧
    Due.cutDue 5 7 ∉ second.due ∧ Due.demotion 5 3 ∉ second.due ∧ Due.passed ∉ second.due := by decide +kernel
theorem witness_OutsideCommands_mark :
    let s : State := { dueIn .cutting .held .passed with due := [.passed, .cutDue 5 7] }
    s.due = .passed :: [.cutDue 5 7] ∧ s.settlesWithin 65536 ∧ .passed ∈ s.due := by
  refine ⟨rfl, .inr (show State.settlesWithin 65535 _ from .inr (show State.settlesWithin 65534 _ from .inl ?_)), ?_⟩ <;>
    decide +kernel
theorem witness_OutsideCommands_boundaries :
    let s := dueIn .cutting .held (.demotion 5 3)
    let first : BoundaryOrder := { order with claimsFirst := true }
    let sending : State := { channelIn .shadow .held with
      cl := { quietPart.cl with sending := some ⟨8, .lead, ⟨none, 0, 0, 0, 0⟩, none, []⟩ } }
    boundaryOf (.fmark 250 first) s = some first ∧ boundaryOf (.holdoverEntry order) s = some order ∧
    (Due.demotion 5 3).floats = true ∧ s.due.filter Due.floats = [.demotion 5 3] ∧ Due.passed ∉ s.due ∧
    Due.demotion 5 3 ∈ (out (exec (.fmark 250 order) s)).due ∧
    Due.demotion 5 3 ∉ (out (exec (.fmark 250 first) s)).due ∧
    sending.due = [] ∧ sending.part = .running ∧ boundaryOf (.fmark 250 order) sending = some order := by
  decide +kernel
theorem witness_PartResetLeavesTheRecordByThePointOfTheCut :
    ({ quietPart with store := ⟨[], some (7, writtenRecord request .target)⟩ } : State).store.programming =
      some (7, writtenRecord request .target) ∧ (writtenRecord request .target).length = 8 ∧
    quietPart.store.programming = none := by decide +kernel
theorem witness_PartReset_address_acknowledged :
    let earlier : List Byte := writtenRecord request .target
    let s : State := { writing .retiring .reinstatement .program with store := ⟨[], some (7, earlier)⟩ }
    let left (place : Nat) : List Byte := (out (exec (.partReset ⟨.powerOn, place⟩) s)).store.cells.readBytes 120 8
    s.settled.sc.flight = some ⟨request, .reinstatement, .program⟩ ∧ s.settled.part = .running ∧
    s.settled.resetHeld = false ∧ left 2 = earlier := by decide +kernel
theorem witness_ResetEndAndOpeningPoll :
    (out (exec (.partReset ⟨.rst, 0⟩) quietPart)).resetHeld = true ∧ State.reset.part = .loading ∧
    State.reset.resetHeld = false ∧ State.reset.sc.loader = .poll := by decide +kernel

/-- A loading part at a stage. -/
def loadingAt (g : LoadStage) : State := { State.reset with sc := { State.reset.sc with loader := g } }

/-- The header the loader holds in the examples. -/
def header : Header := ⟨.follow, bases, Params.reset⟩

theorem witness_ResetEnd_failed_transfers :
    (loadingAt (.records 127)).part = .loading ∧ (loadingAt (.records 127)).resetHeld = false ∧
    (loadingAt (.records 127)).due = [] ∧ (loadingAt .header).sc.loader = .header ∧ (loadingAt .poll).due = [] ∧
    (out (exec (.missingAck ⟨.byteNotAcknowledged, 1⟩) (loadingAt .header))).part = .bypass := by decide +kernel

theorem witness_HeaderReadJudgesTheHeader :
    (loadingAt .header).part = .loading ∧ (loadingAt .header).resetHeld = false ∧
    (loadingAt .header).sc.loader = .header := by decide

/-- The bytes of a store whose header passes the six tests, the last byte the check. -/
def goodHeader : List Byte :=
  [0x5C#8, 1#8, 0#8, 0#8, 0#8, 0#8, 16#8, 0#8, 0#8, 24#8, 0#8, 1#8, 0xD5#8, 64#8, 2#8, 16#8, 24#8, 15#8, 160#8, 62#8,
   128#8, 3#8, 32#8, 8#8] ++ List.replicate 39 0#8 ++ [0xA3#8]

theorem witness_HeaderRead_a_header_passes : (readHeader goodHeader).isSome = true := by decide +kernel

theorem witness_RecordJudged_restored :
    let s : State := { State.reset with store := ⟨Memory.writeBytes [] 120 (writtenRecord request .target), none⟩ }
    s.store.cells.read 120 = 0xA7#8 ∧ (s.channel 5).phase = .copper ∧ s.cm = [] ∧
    ((s.judgeRecord 7).channel 5).phase = .stranded := by decide +kernel
theorem witness_RecordJudged_skipped_and_void :
    let s : State := { channelIn .retired .held with
      store := ⟨Memory.writeBytes [] 120 (writtenRecord request .target), none⟩ }
    s.store.cells.read 120 = 0xA7#8 ∧ (s.channel 5).phase ≠ .copper ∧ s.store.cells.read 64 ≠ 0xA7#8 := by
  decide +kernel
theorem witness_RecordTransferAndEntryToRunning :
    let s (j : Nat) : State := { State.reset with sc := { State.reset.sc with loader := .records j, header := some header } }
    (s 0).part = .loading ∧ (s 0).resetHeld = false ∧ (s 0).sc.loader = .records 0 ∧ (s 0).sc.header = some header ∧
    (s 127).sc.loader = .records 127 ∧ (s 126).sc.loader = .records 126 := by decide
theorem witness_RuntMarkIsIgnored :
    let s : State := { quietPart with ft := ⟨7, .locked, 100, true⟩ }
    s.resetHeld = false ∧ s.ft.boundarySeen = true ∧ max s.ft.timer 124 < 125 := by decide
theorem witness_BoundaryCountsTheFrameAndSetsTheMark :
    boundaryOf (.fmark 125 order) { quietPart with ft := ⟨4095, .holdover, 0, true⟩ } = some order ∧
    boundaryOf (.fmark 0 order) quietPart = some order ∧
    boundaryOf (.holdoverEntry order) quietPart = some order ∧
    boundaryOf (.holdoverBoundary order) { quietPart with ft := ⟨4095, .holdover, 0, true⟩ } = some order := by decide
/-- The link is UP with 15 frames lost, and channel 5 carries with its guard over. -/
def losing : State :=
  { channelIn .carried .held with
    cp := ⟨[(3, { someContext with window := List.replicate 32 false })], []⟩
    cl := { quietPart.cl with link := .up, lossCount := 15 } }

/-- A carrier loss taken first. -/
def lossOrder : BoundaryOrder := { order with lossFirst := true }

theorem witness_Boundary_events_and_carrier_loss :
    losing.steady ∧ losing.cl.sending = none ∧ boundaryOf (.holdoverEntry order) losing = some order ∧
    order.noticeFirst = false ∧ order.assignFirst = false ∧ ¬ losing.losesFirst order ∧ losing.losesFirst lossOrder ∧
    boundaryOf (.fmark 250 lossOrder) losing = some lossOrder ∧ losing.sc.flight = none ∧
    (out (exec (.holdoverEntry order) losing)).du.events = [⟨.collapsed, 5⟩, ⟨.markLost, 0⟩] ∧
    (out (exec (.fmark 250 order) { losing with ft := ⟨1, .holdover, 0, true⟩ })).du.events =
      [⟨.collapsed, 5⟩, ⟨.markRestored, 0⟩] ∧
    (out (exec (.holdoverBoundary order) { losing with ft := ⟨1, .holdover, 0, true⟩ })).du.events =
      [⟨.collapsed, 5⟩] := by
  refine ⟨⟨rfl, rfl, rfl⟩, rfl, rfl, rfl, rfl, fun h => absurd h.1 (by decide), ⟨rfl, rfl, rfl, by decide⟩, ?_⟩
  decide +kernel
theorem witness_BoundaryOutsideRunningActsOnTheFrameTimerAlone :
    State.reset.part ≠ .running ∧ State.reset.due = [] ∧ boundaryOf (.fmark 0 order) State.reset = some order ∧
    State.reset.ft.mark = .locked ∧ boundaryOf (.holdoverEntry order) State.reset = some order ∧
    boundaryOf (.fmark 125 order) { State.reset with ft := ⟨1, .holdover, 0, true⟩ } = some order ∧
    boundaryOf (.holdoverBoundary order) { State.reset with ft := ⟨1, .holdover, 0, true⟩ } = some order := by decide

theorem steady_channelIn (p : Phase) (e : SlotState) : (channelIn p e).steady := ⟨rfl, rfl, rfl⟩

/-- Channel 5 carried with a context whose guard and window are given. -/
def carrying (guard : Nat) (marks : List Bool) : State :=
  { channelIn .carried .held with
    cp := ⟨[(3, { someContext with guardRemaining := guard, window := marks })], []⟩ }

/-- One channel, one context of it and one slot of it, with nothing requested or due but a CUT that may be outstanding. -/
theorem consistent_of_one {s : State} {r : ChannelRecord} {x : Context} {e : SlotEntry}
    (hm : s.cm = [(5, r)]) (hp : s.cp = ⟨[(3, x)], []⟩) (hs : s.sn.slots = [(7, e)])
    (hr : r.phase ∈ [.shadow, .proven, .cutting, .carried] ∧ r.collapsed = false ∧ r.slot = some 7 ∧ r.context = some 3)
    (hx : x.owner = 5) (he : e.state = .held ∧ e.channel = some 5)
    (hn : s.sn.queue = [] ∧ s.sn.schedules = [] ∧ s.due = [])
    (ho : ∀ o, s.sn.outstanding = some o → o.kind = .cut ∧ o.channel = 5 ∧ r.phase = .cutting)
    (ht : s.part = .running ∧ s.resetHeld = false) : s.consistent := by
  have hc : ∀ c, s.channel c = if (5 : Channel) = c then r else .reset := fun c => by
    unfold State.channel; rw [hm]; simp only [Assoc.find]; split <;> rfl
  have hk : ∀ k, s.context k = if (3 : CtxNo) = k then some x else none := fun k => by
    unfold State.context; rw [hp]; simp only [Assoc.find]
  have hl : ∀ n, s.slot n = if (7 : SlotNo) = n then e else .reset := fun n => by
    unfold State.slot; rw [hs]; simp only [Assoc.find]; split <;> rfl
  have hq : s.requests = [] ∨ s.requests = [⟨.cut, 5⟩] ∧ r.phase = .cutting := by
    unfold State.requests; rw [hn.1]
    cases h : s.sn.outstanding with
    | none => exact .inl rfl
    | some o => obtain ⟨h1, h2, h3⟩ := ho o h; exact .inr ⟨by simp [h1, h2], h3⟩
  have hj : ∀ o, s.sn.outstanding = some o → o.kind = .cut := fun o h => (ho o h).1
  have hf := hr.1
  simp only [List.mem_cons, List.not_mem_nil, or_false] at hf
  refine ⟨fun c => ?_, ⟨by rw [hp]; exact List.pairwise_singleton _ _, fun c k => ?_⟩,
    ⟨by rw [hp]; exact List.nodup_nil, fun c => ?_⟩,
    ⟨fun c n => ?_, fun n => ?_, fun n => ?_, fun n => ?_⟩,
    ⟨?_, ?_, fun o h h' => absurd (hj o h) h'⟩,
    ⟨by rw [hn.2.1]; decide, fun c x h => by rw [hn.2.1] at h; cases h⟩, ⟨by rw [hn.2.2]; simp, by rw [hn.2.2]; simp⟩,
    ⟨fun h => absurd ht.1 h, by rw [ht.2]; simp, by rw [ht.1]; simp⟩⟩
  · dsimp only; rw [hc c]
    split
    · rcases hf with h | h | h | h <;> simp [ChannelRecord.holdsContext, hr.2, h]
    · simp [ChannelRecord.holdsContext, ChannelRecord.reset]
  · rw [hc c, hk k]
    by_cases h1 : (5 : Channel) = c <;> by_cases h2 : (3 : CtxNo) = k <;>
      simp [h1, h2, hr.2, hx, ChannelRecord.reset]
  · rw [hc c, hp]
    split
    · rcases hf with h | h | h | h <;> simp [h]
    · simp [ChannelRecord.reset]
  · rw [hc c, hl n]
    by_cases h1 : (5 : Channel) = c <;> by_cases h2 : (7 : SlotNo) = n <;>
      simp [h1, h2, hr.2, he, ChannelRecord.reset, SlotEntry.reset, SlotEntry.inUse]
  · rw [hl n]; split <;> simp [he, SlotEntry.reset, SlotEntry.inUse]
  · rw [hl n]; split <;> simp only [he, SlotEntry.reset] <;>
      exact iff_of_false (by simp) fun ⟨o, h, h', _⟩ => by rw [hj o h] at h'; cases h'
  · rw [hl n]; split <;> simp only [he, SlotEntry.reset] <;>
      exact iff_of_false (by simp) fun ⟨o, h, h', _⟩ => by rw [hj o h] at h'; cases h'
  · rcases hq with h | h
    · rw [h]; decide
    · rw [h.1]; decide
  · rcases hq with h | h
    · rw [h]; simp
    · rw [h.1]; intro q hq; rw [List.mem_singleton.1 hq]; simp [hc, h.2]

theorem consistent_carrying (guard : Nat) (marks : List Bool) : (carrying guard marks).consistent :=
  consistent_of_one rfl rfl rfl ⟨by decide, rfl, rfl, rfl⟩ rfl ⟨rfl, rfl⟩ ⟨rfl, rfl, rfl⟩ (fun _ h => nomatch h) ⟨rfl, rfl⟩

theorem witness_Boundary_consistent : losing.consistent ∧ losing.channelsInOrder ∧ losing.routesFollow :=
  ⟨consistent_of_one rfl rfl rfl ⟨by decide, rfl, rfl, rfl⟩ rfl ⟨rfl, rfl⟩ ⟨rfl, rfl, rfl⟩ (fun _ h => nomatch h) ⟨rfl, rfl⟩,
    by unfold State.channelsInOrder; decide, by unfold State.routesFollow; decide⟩
theorem witness_Boundary_route_not_fibre :
    let s := channelIn .shadow .held
    s.steady ∧ s.consistent ∧ s.channelsInOrder ∧ s.routesFollow ∧ (s.channel 5).pending.inn ≠ .fibre ∧
    (s.channel 5).phase = .shadow ∧ ¬ s.losesFirst order ∧ s.context 3 = some someContext ∧
    ((out (exec (.fmark 250 order) s)).context 3).isSome = true :=
  ⟨⟨rfl, rfl, rfl⟩,
    consistent_of_one rfl rfl rfl ⟨by decide, rfl, rfl, rfl⟩ rfl ⟨rfl, rfl⟩ ⟨rfl, rfl, rfl⟩ (fun _ h => nomatch h) ⟨rfl, rfl⟩,
    by unfold State.channelsInOrder; decide, by unfold State.routesFollow; decide, by decide, rfl,
    fun h => absurd h.1 (by decide), rfl, by decide +kernel⟩

/-- Channel 5 waits with its CUT outstanding when the sixteenth frame in a row is lost. -/
def losingCut : State :=
  { channelIn .cutting .held with
    cl := { quietPart.cl with link := .up, lossCount := 15 }
    sn := { (channelIn .cutting .held).sn with outstanding := some (outstandingOf .cut) } }

theorem witness_Boundary_loss_withdraws_the_cut :
    losingCut.steady ∧ losingCut.consistent ∧ losingCut.channelsInOrder ∧ losingCut.losesFirst lossOrder ∧
    boundaryOf (.fmark 250 lossOrder) losingCut = some lossOrder ∧ lossOrder.noticeFirst = false ∧
    losingCut.sn.outstanding = some (outstandingOf .cut) ∧ (outstandingOf .cut).kind = .cut ∧
    (out (exec (.fmark 250 lossOrder) losingCut)).sn.outstanding = none :=
  ⟨⟨rfl, rfl, rfl⟩,
    consistent_of_one rfl rfl rfl ⟨by decide, rfl, rfl, rfl⟩ rfl ⟨rfl, rfl⟩ ⟨rfl, rfl, rfl⟩
      (fun _ h => by cases h; exact ⟨rfl, rfl, rfl⟩) ⟨rfl, rfl⟩,
    by unfold State.channelsInOrder; decide, ⟨rfl, rfl, rfl, by decide⟩, by decide +kernel⟩
theorem witness_Boundary_loss_cancels_the_schedule :
    let s : State := { losingCut with sn := { losingCut.sn with outstanding := none, schedules := [(5, ⟨7, 2⟩)] } }
    s.steady ∧ s.schedulesSingle ∧ s.losesFirst lossOrder ∧ Assoc.find s.sn.schedules 5 = some ⟨7, 2⟩ ∧
    Assoc.find (out (exec (.fmark 250 lossOrder) s)).sn.schedules 5 = none := by
  refine ⟨⟨rfl, rfl, rfl⟩, ⟨by decide, fun c x h => ?_⟩, ⟨rfl, rfl, rfl, by decide⟩, rfl, by decide +kernel⟩
  simp only [Assoc.find] at h
  split at h
  · rename_i e; subst e; exact ⟨rfl, by decide⟩
  · cases h

theorem witness_PendingRoutesBecomeActiveAtTheBoundary :
    (channelIn .shadow .held).steady ∧ (channelIn .shadow .held).cl.sending = none ∧
    (channelIn .shadow .held).routesFollow ∧ boundaryOf (.fmark 250 order) (channelIn .shadow .held) = some order :=
  ⟨⟨rfl, rfl, rfl⟩, rfl, by unfold State.routesFollow; decide, by decide⟩
theorem witness_PendingRoutes_fibre_words (guard : Nat) (marks : List Bool) :
    let s := carrying guard marks
    s.steady ∧ s.cl.sending = none ∧ s.routesFollow ∧ s.channelsInOrder ∧ s.consistent ∧
    boundaryOf (.fmark 250 order) s = some order ∧ (s.channel 5).pending.inn = .fibre ∧
    (s.channel 6).pending.inn ≠ .fibre ∧ (s.channel 5).slot = some 7 ∧ (s.channel 5).idle = some 0x1D5#12 ∧
    s.register 5 = some (FibreRegister.start 0x9AA#12) ∧ (s.channel 5).context = some 3 ∧
    s.context 3 = some { someContext with guardRemaining := guard, window := marks } ∧
    someContext.lastCopper = some 0x155#12 :=
  ⟨⟨rfl, rfl, rfl⟩, rfl, by unfold State.routesFollow; show ∀ p ∈ [(5, recordIn .carried)], _; decide,
    by unfold State.channelsInOrder; show (Assoc.keys [(5, recordIn .carried)]).Pairwise _; decide,
    consistent_carrying _ _, rfl, rfl, by rintro ⟨⟩, rfl, rfl, rfl, rfl, rfl, rfl⟩
theorem witness_PendingRoutes_guard_over :
    let s (guard : Nat) (m : Bool) := out (exec (.fmark 250 order) (carrying guard (List.replicate 32 m)))
    ((s 0 false).channel 5).collapsed = true ∧ ((s 0 true).channel 5).collapsed = false ∧
    ((s 0 true).context 3).map Context.guardRemaining = some 0 ∧ Due.guardEnd 5 ∈ (s 1 true).due ∧
    ((s 2 true).register 5).map FibreRegister.frameWord = some 0x1AA#12 := by decide +kernel

/-- Slot 7 with its latch holding a good arrival. -/
def arrived : State :=
  { channelIn .shadow .held with sn := { quietPart.sn with slots :=
    [(7, { SlotEntry.reset with
        state := .held
        channel := some 5
        latch := some ⟨0x96A#12, false, .shadow⟩ }),
     (8, { SlotEntry.reset with state := .barred, barClock := 1 })] } }

/-- Schedules, a marked slot, a CUT outstanding and a write in PAUSE. -/
def counting (toGo : Nat) : State :=
  { writing .cutting .reinstatement (.pause 1) with sn := { quietPart.sn with
      slots := [(7, { SlotEntry.reset with state := .held, channel := some 5, followDue := true })]
      outstanding := some (outstandingOf .cut)
      schedules := [(5, ⟨7, toGo⟩)] } }

theorem witness_Latches_counts :
    let s := out (exec (.fmark 250 order) (counting 1))
    (counting 1).steady ∧ (counting 1).cl.sending = none ∧ boundaryOf (.fmark 250 order) (counting 1) = some order ∧
    order.noticeFirst = false ∧ order.lossFirst = false ∧ order.assignFirst = false ∧
    ((counting 1).slot 7).followDue = true ∧ ((counting 1).slot 7).channel = some 5 ∧
    (counting 1).sn.outstanding = some (outstandingOf .cut) ∧ (outstandingOf .cut).firstSent = none ∧
    (counting 1).sc.flight = some ⟨request, .reinstatement, .pause 1⟩ ∧
    Assoc.find (counting 1).sn.schedules 5 = some ⟨7, 1⟩ ∧ Assoc.find (counting 2).sn.schedules 5 = some ⟨7, 2⟩ ∧
    Assoc.find (counting 1).sn.schedules 6 = none ∧ Due.cutDue 5 7 ∈ s.due ∧ Due.reinstatementRetry ∈ s.due :=
  ⟨⟨rfl, rfl, rfl⟩, by decide +kernel⟩
theorem witness_Latches_schedules_single :
    ({ counting 2 with sn := { (counting 2).sn with outstanding := none } } : State).schedulesSingle := by
  refine ⟨by decide, fun c x h => ?_⟩
  simp only [counting, Assoc.find] at h
  split at h
  · rename_i e; subst e; exact ⟨rfl, by decide⟩
  · cases h

/-- Channel 5 with a context whose clocks are about to run out. -/
def clocking (p : Phase) : State :=
  { channelIn p .held with
    cp := ⟨[(3, { someContext with joinClock := 15999, retryGap := 1, guardRemaining := 1 })], []⟩ }

theorem witness_DelayLines_clocks :
    let s (p : Phase) := out (exec (.fmark 250 order) (clocking p))
    (clocking .joining).steady ∧ (clocking .carried).steady ∧ ((clocking .joining).channel 5).phase = .joining ∧
    (clocking .joining).context 3 =
      some { someContext with joinClock := 15999, retryGap := 1, guardRemaining := 1 } ∧
    (clocking .joining).sc.params.joinWait ≤ min 65535 (15999 + 1) ∧ Due.joinTimeout 5 3 ∈ (s .joining).due ∧
    Due.retryGapEnd 5 3 ∈ (s .joining).due ∧ Due.guardEnd 5 ∈ (s .carried).due :=
  ⟨⟨rfl, rfl, rfl⟩, ⟨rfl, rfl, rfl⟩, by decide +kernel⟩

theorem witness_LatchesBecomeVisibleAtTheBoundary :
    arrived.steady ∧ arrived.cl.sending = none ∧ boundaryOf (.fmark 250 order) arrived = some order ∧
    order.noticeFirst = false ∧ (arrived.slot 7).state = .held ∧ (arrived.slot 8).state = .barred ∧
    (arrived.slot 8).barClock = 1 := ⟨⟨rfl, rfl, rfl⟩, by decide⟩
theorem witness_DelayLinesArePushedAtTheBoundary :
    arrived.steady ∧ arrived.cl.sending = none ∧ boundaryOf (.fmark 250 order) arrived = some order ∧
    arrived.context 3 = some someContext ∧ someContext.delay.length = 16 ∧
    ((out (exec (.fmark 250 order) arrived)).context 3).isSome = true := ⟨⟨rfl, rfl, rfl⟩, by decide +kernel⟩
theorem witness_BoundarySendsOneCarrierFrame :
    arrived.steady ∧ arrived.cl.sending = none ∧ boundaryOf (.fmark 250 order) arrived = some order ∧
    order.lossFirst = false ∧ arrived.cl.role = some .lead := ⟨⟨rfl, rfl, rfl⟩, by decide⟩
theorem witness_Boundary_notice_first :
    let first : BoundaryOrder := { order with noticeFirst := true }
    let asking (p : Phase) (k : NoticeKind) : State := { channelIn p .held with
      sn := { (channelIn p .held).sn with queue := [⟨k, 5⟩] } }
    let notice (s : State) : Option NoticeField := (out (exec (.fmark 250 first) s)).cl.sending.map CarrierFrame.notice
    (asking .joining .join).steady ∧ (asking .joining .join).sn.outstanding = none ∧
    ((asking .joining .join).channel 5).phase = .joining ∧ ((asking .joining .join).channel 5).label = some 9 ∧
    ((asking .joining .join).slot 0).state = .free ∧ ((asking .cutting .cut).channel 5).slot = some 7 ∧
    ¬ (asking .cutting .cut).losesFirst first ∧ ((asking .leaving .leave).channel 5).slot = some 7 ∧
    notice (asking .joining .join) = some ⟨some .join, 0, 0, 9, 0⟩ ∧
    notice (asking .cutting .cut) = some ⟨some .cut, 0, 7, 0, 24⟩ ∧
    notice (asking .leaving .leave) = some ⟨some .leave, 0, 7, 0, 0⟩ :=
  ⟨⟨rfl, rfl, rfl⟩, rfl, rfl, rfl, rfl, rfl, fun h => absurd h.1 (by decide), by decide +kernel⟩
theorem witness_Boundary_reply_none_after_a_loss :
    let s : State := { losing with sn := { losing.sn with peer := some ⟨.join, 4, 7, 9, .agree⟩ } }
    let reply (o : BoundaryOrder) := (out (exec (.fmark 250 o) s)).cl.sending.map CarrierFrame.reply
    s.steady ∧ s.cl.role = some .lead ∧ s.losesFirst lossOrder ∧ ¬ s.losesFirst order ∧
    reply order = some (some ⟨4, .agree⟩) ∧ reply lossOrder = some none ∧
    ((out (exec (.fmark 250 lossOrder) s)).channel 5).slot = some 7 :=
  ⟨⟨rfl, rfl, rfl⟩, rfl, ⟨rfl, rfl, rfl, by decide⟩, fun h => absurd h.1 (by decide), by decide +kernel⟩
theorem witness_FrameCarriesARecordForEachTappedChannel :
    let paired : State := { arrived with bi := ⟨some bases, some ⟨5, 0xA#4, true, false⟩, []⟩ }
    let first : BoundaryOrder := { order with captureFirst := true }
    arrived.steady ∧ paired.steady ∧ arrived.bi.pairing = none ∧ arrived.channelsInOrder ∧
    (arrived.channel 5).active.tap ≠ .none ∧ (arrived.channel 5).slot = some 7 ∧ arrived.cm = [(5, recordIn .shadow)] ∧
    paired.bi.pairing = some ⟨5, 0xA#4, true, false⟩ ∧ boundaryOf (.fmark 250 first) paired = some first ∧
    ((out (exec (.fmark 250 first) paired)).cl.sending.map CarrierFrame.records) =
      some [⟨7, 0xAD5#12, false, true, true⟩] :=
  ⟨⟨rfl, rfl, rfl⟩, ⟨rfl, rfl, rfl⟩, rfl, by unfold State.channelsInOrder; decide, by decide +kernel⟩
theorem witness_LossCountStepsAtTheBoundary :
    let s (l : LinkState) : State := { channelIn .shadow .held with
      cl := { quietPart.cl with link := l, lossCount := 15 } }
    (s .up).steady ∧ (s .hunting).steady ∧ (s .up).cl.link = .up ∧ (s .up).cl.markGood = false ∧
    min 16 ((s .up).cl.lossCount + 1) = 16 ∧ boundaryOf (.fmark 250 order) (s .up) = some order :=
  ⟨⟨rfl, rfl, rfl⟩, ⟨rfl, rfl, rfl⟩, by decide⟩

theorem bases_apart : bases.apart := by unfold Bases.apart bases; decide

theorem witness_PlainAccessPassesUnchanged :
    let x : Access := ⟨.controller, 6143, .write ⟨7, true, false⟩⟩
    busAccess (.plainAccess x) = some x ∧ quietPart.steady ∧ quietPart.bi.bases = some bases ∧ bases.plain x :=
  ⟨rfl, ⟨rfl, rfl, rfl⟩, rfl, fun k h => by have := h.1; simp [bases] at this; omega⟩
theorem witness_AccessOutsideRunningPassesUnchanged :
    busAccess (.sampleRead 5 ⟨0, false, false⟩) = some ⟨.engine, 5, .read ⟨0, false, false⟩⟩ ∧ State.reset.due = [] ∧
    State.reset.part ≠ .running := by decide
theorem witness_IncomingSampleWriteActsByTheInSetting :
    (channelIn .shadow .held).steady ∧ bases.sampleAt 4095 4095 ∧ bases.sampleAt 5 5 ∧
    ((channelIn .shadow .held).channel 5).active.inn = .pass ∧ ((channelIn .shadow .held).channel 5).context = some 3 ∧
    ((channelIn .shadow .held).channel 2047).context = none ∧
    ((channelIn .carried .held).channel 5).active.inn = .fibre ∧
    ((channelIn .carried .held).register 5).map FibreRegister.frameWord = some 0x9AA#12 ∧
    ((channelIn .stranded .held).channel 5).active.inn = .idle ∧
    ((channelIn .stranded .held).channel 5).idle = some 0x1D5#12 :=
  ⟨⟨rfl, rfl, rfl⟩, ⟨rfl, by decide⟩, ⟨rfl, by decide⟩, by decide⟩
theorem witness_HandOverIsJudgedByTheOwnersPhase :
    let x : Context := { someContext with delay := some 0x9AA#12 :: List.replicate 15 none }
    (channelIn .shadow .held).context 3 = some someContext ∧ someContext.owner = 5 ∧
    someContext.lastCopper = some 0x155#12 ∧ x.delay.length = 16 ∧ x.runs.length = 16 ∧
    x.delay.getD 0 none = some 0x9AA#12 ∧ ((channelIn .cutting .held).channel 5).phase = .cutting := by decide
theorem witness_RouteReadOpensOrCompletesThePairing :
    let s : State := { channelIn .stranded .held with
      bi := ⟨some bases, some ⟨5, 0xA#4, true, false⟩, []⟩ }
    s.steady ∧ bases.apart ∧ bases.routeAt 6143 2047 ∧ bases.routeAt 4101 5 ∧ s.bi.bases = some bases ∧
    s.bi.pairing = some ⟨5, 0xA#4, true, false⟩ ∧ (s.channel 5).active.out = .idle ∧
    (s.channel 5).idle = some 0x1D5#12 ∧ (s.channel 2047).active.out = .pass :=
  ⟨⟨rfl, rfl, rfl⟩, bases_apart, ⟨rfl, by decide⟩, ⟨rfl, by decide⟩, by decide⟩
theorem witness_SampleReadCompletesThePairing :
    let s : State := { channelIn .retired .held with
      bi := ⟨some bases, some ⟨5, 0xA#4, true, true⟩, []⟩ }
    s.steady ∧ bases.sampleAt 0 0 ∧ s.bi.pairing = some ⟨5, 0xA#4, true, true⟩ ∧ quietPart.bi.pairing = none ∧
    (s.channel 5).active.out = .idle ∧ (s.channel 5).idle = some 0x1D5#12 :=
  ⟨⟨rfl, rfl, rfl⟩, ⟨rfl, by decide⟩, by decide⟩
theorem witness_D0WriteStartsADirectiveOrSetsOverrun :
    busAccess (.inspect 6144 0x805#12 false false) = some ⟨.controller, 6144, d0Write 6 0x805#12 false false⟩ ∧
    quietPart.steady ∧ bases.apart ∧ bases.directiveAt 6144 0 ∧
    parityGood ⟨6#4 ++ 0x805#12, true, false⟩ = true ∧ quietPart.du.inProgress = none ∧
    (running quietPart (directive 2 5 0)).du.inProgress ≠ none :=
  ⟨rfl, ⟨rfl, rfl, rfl⟩, bases_apart, ⟨rfl, by decide⟩, by decide⟩
theorem witness_DirectiveWritesLatchByTheirOffset :
    busAccess (.attentionMaskWrite 6151 ⟨0x0101#16, true, true⟩) =
      some ⟨.controller, 6151, .write ⟨0x0101#16, true, true⟩⟩ ∧
    quietPart.steady ∧ bases.apart ∧ bases.directiveAt 6151 7 ∧ bases.directiveAt 6145 1 ∧ bases.directiveAt 6144 0 ∧
    parityGood ⟨0x0101#16, true, true⟩ = true ∧ parityGood ⟨0x0101#16, false, true⟩ = false :=
  ⟨rfl, ⟨rfl, rfl, rfl⟩, bases_apart, ⟨rfl, by decide⟩, ⟨rfl, by decide⟩, ⟨rfl, by decide⟩, by decide⟩
theorem witness_ReportReadReturnsTheWordThenActs :
    let walk (n : Nat) : State := { quietPart with du := { quietPart.du with stepMode := some ⟨.inspect, n, 7⟩ } }
    busAccess (.rp6Read 6158 ⟨0, false, false⟩) = some ⟨.controller, 6158, .read ⟨0, false, false⟩⟩ ∧
    (walk 2046).steady ∧ bases.apart ∧ bases.reportAt 6158 6 ∧ bases.reportAt 6152 0 ∧ bases.reportAt 6167 15 ∧
    (walk 2046).du.inProgress = none ∧ (walk 2047).du.stepMode = some ⟨.inspect, 2047, 7⟩ :=
  ⟨rfl, ⟨rfl, rfl, rfl⟩, bases_apart, ⟨rfl, by decide⟩, ⟨rfl, by decide⟩, ⟨rfl, by decide⟩, by decide⟩
theorem witness_RunRefusesUnknownCodesAndDoubtedLatches :
    let doubted : Directive := { directive 1 5 1 with copies := ⟨⟨5, false⟩, ⟨1, false⟩, ⟨7, true⟩, ⟨0, false⟩⟩ }
    quietPart.due = [] ∧ quietPart.du.inProgress = none ∧ (directive 10 5 0).stepOf = none ∧
    9 < (directive 10 5 0).code.toNat ∧ (directive 0 5 0).code.toNat = 0 ∧ doubted.code = 1#4 ∧
    doubted.copies.d3.doubt = true := by decide
theorem witness_EnrolTakesARangeIntoMigration :
    let s := running (channelIn .shadow .held) (directive 1 5 32)
    s.due = [] ∧ s.du.inProgress = some (directive 1 5 32) ∧ (directive 1 5 32).copies.d4.doubt = false ∧
    (s.cm.filter fun p => decide (p.2.phase ≠ .copper)).length = 1 ∧ (s.channel 5).phase ≠ .copper ∧
    (s.channel 36).phase = .copper ∧ (∀ p ∈ s.cm, p.2.label = some 9) := by decide
theorem witness_CutAndRetireAreCheckedThenClaimed :
    (directive 2 5 0).names 2 5 ∧ (directive 3 5 0).names 3 5 ∧
    (channelIn .proven .held).cl.link = .up ∧ ((channelIn .proven .held).channel 5).phase = .proven ∧
    quietPart.cl.link ≠ .up ∧ (directive 3 2048 0).copies.d1.value.toNat = 2048 ∧
    ({ recordIn .carried with collapsed := true } : ChannelRecord).slot = some 7 ∧
    (channelIn .carried .held).sc.queue.length < 16 :=
  ⟨⟨rfl, rfl, rfl, rfl⟩, ⟨rfl, rfl, rfl, rfl⟩, by decide⟩
theorem witness_RecallAndWithdrawAreCheckedThenClaimed :
    (directive 4 5 0).names 4 5 ∧ (directive 5 5 0).names 5 5 ∧
    ((channelIn .retired .held).channel 5).phase = .retired ∧ ((channelIn .retired .held).channel 5).label = some 9 ∧
    ((channelIn .fallen .held).channel 5).phase = .fallen ∧
    ({ recordIn .fallen with context := none } : ChannelRecord).context = none ∧
    ((channelIn .joining .reserved).channel 5).phase = .joining ∧
    (List.replicate 32 (⟨.leave, 5⟩ : Request)).length = 32 :=
  ⟨⟨rfl, rfl, rfl, rfl⟩, ⟨rfl, rfl, rfl, rfl⟩, by decide⟩
theorem witness_ViewsFillTheResultsOfTheirNumber :
    (directive 6 2047 0).copies.d1.value.toNat = (2047 : Channel).val ∧
    (directive 7 1023 0).copies.d1.value.toNat = (1023 : SlotNo).val ∧
    2047 < (directive 6 2048 0).copies.d1.value.toNat ∧
    ({ directive 6 0 0 with stepOf := some (.inspect, 2047) } : Directive).stepOf =
      some (.inspect, (2047 : Channel).val) := by decide
theorem witness_SetPlacesAParameterInItsRange :
    (directive 8 1 255).copies.d2.value.toNat ≤ 255 ∧ (directive 8 9 4096).copies.d2.value.toNat > 4095 ∧
    (directive 8 9 4095).stepOf = none ∧ (directive 8 9 4095).code = 8#4 := by decide
theorem witness_AbandonClearsAllButTheRetiredGroup :
    let s := running (channelIn .retired .held) (directive 9 0 0)
    s.due = [] ∧ s.du.inProgress = some (directive 9 0 0) ∧ (directive 9 0 0).code = 9#4 := by decide

theorem witness_ContextAssignServesTheProofQueue :
    let s (p : Phase) : State := { channelIn p .held with cp := ⟨[], [5]⟩, due := [.contextAssign] }
    Due.contextAssign ∈ (s .enrolled).due ∧ (s .enrolled).cp.queue = [5] ∧ (s .enrolled).context 0 = none ∧
    ((s .fallen).channel 5).phase = .fallen ∧ ((s .copper).channel 5).phase = .copper := by decide
theorem witness_NoticeOutstandingTakesTheHeadRequest :
    let s (k : NoticeKind) : State := { channelIn .joining .reserved with
      sn := { quietPart.sn with queue := [⟨k, 5⟩] }, due := [.noticeOutstanding] }
    Due.noticeOutstanding ∈ (s .join).due ∧ (s .join).sn.outstanding = none ∧
    (s .join).sn.queue.head? = some ⟨.join, 5⟩ ∧ ((s .join).channel 5).phase = .joining ∧
    ((s .join).channel 5).label = some 9 ∧ ((s .join).slot 0).state = .free ∧
    (s .cut).sn.queue.head? = some ⟨.cut, 5⟩ ∧ ((s .leave).channel 5).slot = some 7 := by decide
theorem witness_NoticeOutstanding_no_slot_free (n : SlotNo) :
    (State.slot { quietPart with sn := { quietPart.sn with slots := allHeld } } n).state ≠ .free := by
  rw [allHeld_held]; decide
theorem witness_JoinEndsBackInTheProofQueue :
    let late : State := { dueIn .joining .reserved (.joinTimeout 5 3) with
      cp := ⟨[(3, { someContext with joinClock := 16000 })], []⟩ }
    ownStep (.joinTimeout 5 3) = some (.joinTimeout 5 3) ∧ Due.joinTimeout 5 3 ∈ late.due ∧
    late.context 3 = some { someContext with joinClock := 16000 } ∧ late.sc.params.joinWait ≤ 16000 ∧
    ((out (exec (.joinTimeout 5 3) late)).channel 5).phase = .enrolled ∧ someContext.joinClock < 16000 ∧
    ((channelIn .joining .reserved).channel 5).context = some 3 ∧
    ((channelIn .joining .reserved).channel 5).phase = .joining ∧
    ((channelIn .shadow .held).channel 5).phase ≠ .joining := by decide +kernel
theorem witness_GapAppendsJoinAndBarClockFreesSlot :
    Due.retryGapEnd 5 3 ∈ (dueIn .joining .reserved (.retryGapEnd 5 3)).due ∧
    (channelIn .joining .reserved).cl.role = some .lead ∧ (channelIn .joining .reserved).requests = [] ∧
    (out (exec (.retryGapEnd 5 3) (dueIn .joining .reserved (.retryGapEnd 5 3)))).sn.queue = [⟨.join, 5⟩] ∧
    Due.barClockExpiry 7 ∈ (dueIn .joining .barred (.barClockExpiry 7)).due ∧
    ((channelIn .joining .barred).slot 7).state = .barred ∧ ((channelIn .joining .barred).slot 7).barClock = 0 ∧
    ((channelIn .joining .reserved).slot 7).state ≠ .barred := by decide +kernel
theorem witness_CutStartsCarriage :
    let marked : State := { dueIn .proven .held (.followCut 5 7) with sn := { quietPart.sn with
      slots := [(7, { SlotEntry.reset with state := .held, channel := some 5, followDue := true })] } }
    ownStep (.cutDue 5 7) = some (.cutDue 5 7) ∧ Due.cutDue 5 7 ∈ (dueIn .cutting .held (.cutDue 5 7)).due ∧
    ((channelIn .cutting .held).channel 5).slot = some 7 ∧ ((channelIn .cutting .held).channel 5).context = some 3 ∧
    (channelIn .cutting .held).context 3 = some someContext ∧ someContext.lastCopper = some 0x155#12 ∧
    1 ≤ (channelIn .cutting .held).sc.params.holdLimit ∧ Due.followCut 5 7 ∈ marked.due ∧
    (marked.slot 7).followDue = true ∧ ((channelIn .shadow .held).channel 5).phase ≠ .cutting := by decide
theorem witness_GuardEndTestsQuietAndChoosesTheWord :
    let s := dueIn .carried .held (.guardEnd 5)
    Due.guardEnd 5 ∈ s.due ∧ (s.channel 5).phase = .carried ∧ (s.channel 5).context = some 3 ∧
    (s.channel 5).slot = some 7 ∧ (s.channel 5).idle = some 0x1D5#12 ∧ s.context 3 = some someContext ∧
    someContext.guardRemaining = 0 ∧ s.register 5 = some (FibreRegister.start 0x9AA#12) ∧
    (someContext.window.filter id).length ≤ s.sc.params.quietLimit ∧
    ¬ (({ someContext with window := List.replicate 32 true } : Context).window.filter id).length ≤
      s.sc.params.quietLimit := by decide
theorem witness_SlotSilentSubstitutesTheIdlePattern :
    let y : FibreRegister := { FibreRegister.start 0x9AA#12 with repeats := 9 }
    Due.slotSilent 5 ∈ (dueIn .carried .held (.slotSilent 5)).due ∧
    ((channelIn .carried .held).channel 5).idle = some 0x1D5#12 ∧
    (channelIn .carried .held).sc.params.holdLimit < y.repeats ∧ y.silent = false ∧ y.carriedWord ≠ 0x1D5#12 ∧
    (FibreRegister.start 0x9AA#12).repeats ≤ (channelIn .carried .held).sc.params.holdLimit := by decide
theorem witness_LinkDownTakesTheCarrierLossClaim :
    let s : State := { dueIn .carried .held .linkDown with cl := { quietPart.cl with link := .up, lossCount := 16 } }
    Due.linkDown ∈ s.due ∧ s.channelsInOrder ∧ s.cl.link = .up ∧ 16 ≤ s.cl.lossCount ∧
    (s.channel 5).context = some 3 ∧ s.context 3 = some someContext :=
  ⟨by decide, by unfold State.channelsInOrder; decide, by decide⟩
theorem witness_OrphanTestAndPeerShadowActByThePhase :
    let s (p : Phase) : State := { dueIn p .held (.orphanTest 7) with
      sn := { quietPart.sn with slots :=
        [(7, { SlotEntry.reset with
            state := .held
            channel := some 5
            orphanCount := 800
            shadowRun := 8 })] }
      due := [.orphanTest 7, .peerShadow 7] }
    ((s .carried).slot 7).channel = some 5 ∧ (s .carried).cl.link = .up ∧ ((s .carried).slot 7).state = .held ∧
    (s .carried).sc.params.orphanFrames ≤ ((s .carried).slot 7).orphanCount ∧
    Due.orphanTest 7 ∈ (s .retired).due ∧ Due.peerShadow 7 ∈ (s .carried).due ∧
    8 ≤ ((s .carried).slot 7).shadowRun ∧ ((s .retired).channel 5).slot = some 7 := by decide
theorem witness_OrphanTest_heard :
    let s (p : Phase) : State := { channelIn p .held with due := [.heard 7, .linkDown] }
    (s .stranded).due = .heard 7 :: [.linkDown] ∧ ((s .stranded).slot 7).channel = some 5 ∧
    ((s .stranded).channel 5).phase = .stranded ∧ ((s .stranded).channel 5).slot = some 7 ∧
    ((s .retired).channel 5).phase ≠ .stranded ∧ ((s .stranded).takeHeard.channel 5).phase = .retired ∧
    (s .stranded).takeHeard.due = [.linkDown] := by decide +kernel

/-- Slots 7 and 8 of a STRANDED channel 5 and a silent RETIRED channel 6, as an ORPHAN_TEST finds them. -/
def strandedAndSilent (d : List Due) : State :=
  { channelIn .stranded .held with
    cm := [(5, { recordIn .stranded with cause := some .silence, context := none }),
      (6, { recordIn .retired with slot := some 8, context := none })]
    sn := { quietPart.sn with slots := [(7, { SlotEntry.reset with state := .held, channel := some 5 }),
      (8, { SlotEntry.reset with state := .held, channel := some 6, orphanCount := 799 })] }
    due := d }

theorem witness_ProofEndsInProvenOrBackInTheQueue :
    Due.proofSuccess 5 3 15 ∈ (dueIn .shadow .held (.proofSuccess 5 3 15)).due ∧
    Due.proofFailure 5 3 ∈ (dueIn .shadow .held (.proofFailure 5 3)).due ∧
    ((channelIn .shadow .held).channel 5).phase = .shadow ∧ ((channelIn .shadow .held).channel 5).context = some 3 ∧
    ((channelIn .proven .held).channel 5).phase ≠ .shadow := by decide
theorem witness_DemotionRestartsProofAndCutFailedReturns :
    Due.demotion 5 3 ∈ (dueIn .cutting .held (.demotion 5 3)).due ∧
    Due.cutFailed 5 7 ∈ (dueIn .cutting .held (.cutFailed 5 7)).due ∧
    ((channelIn .cutting .held).channel 5).phase = .cutting ∧ ((channelIn .cutting .held).channel 5).slot = some 7 ∧
    ((channelIn .proven .held).channel 5).context = some 3 := by decide
theorem witness_SentNoticesAgeAndExpire :
    let field (k : NoticeKind) : NoticeField := ⟨some k, 4, 7, 9, 24⟩
    let sent (k : NoticeKind) : State := { channelIn .joining .reserved with
      cl := { quietPart.cl with sending := some ⟨8, .lead, field k, none, []⟩ }
      sn := { quietPart.sn with outstanding := some (outstandingOf k) } }
    let expired (k : NoticeKind) : State := { sent k with
      sn := { quietPart.sn with outstanding := some { outstandingOf k with expired := true } }
      due := [.noticeExpiry 4] }
    (sent .join).due = [] ∧ (sent .cut).cl.sending = some ⟨8, .lead, field .cut, none, []⟩ ∧
    (sent .leave).sn.outstanding = some (outstandingOf .leave) ∧ quietPart.cl.sending = none ∧
    Due.noticeExpiry 4 ∈ (expired .join).due ∧
    (expired .join).sn.outstanding = some { outstandingOf .join with expired := true } ∧
    ((expired .join).channel 5).phase = .joining ∧ ((expired .join).channel 5).slot = some 7 ∧
    ((expired .join).channel 5).context = some 3 ∧ (expired .join).context 3 = some someContext ∧
    ((channelIn .leaving .releasing).channel 5).phase = .leaving := by decide

/-- A frame of the other role with one record of slot 7. -/
def frame : CarrierFrame := ⟨8, .follow, ⟨none, 0, 0, 0, 0⟩, none, [⟨7, 0x96A#12, true, false, true⟩]⟩

/-- The frame as it is read. -/
def heardFrame : ReceivedFrame :=
  ⟨8, .follow, ⟨none, 0, 0, 0, 0⟩, none, [⟨⟨7, 0x96A#12, true, false, true⟩, true⟩]⟩

theorem witness_ArrivalsAreJudgedAndInvalidOnesDiscarded :
    State.reset.due = [] ∧ State.reset.part ≠ .running ∧ readFrame [] = none ∧ quietPart.due = [] := by decide
theorem witness_LinkMonitorFollowsTheFrames :
    readFrame (frameBytes frame) = some heardFrame ∧ quietPart.cl.role = some .lead ∧ heardFrame.role ≠ .lead ∧
    quietPart.cl.link = .dark ∧ (channelIn .shadow .held).cl.link = .up ∧
    Due.linkUp ∈ (dueIn .shadow .held .linkUp).due ∧ Due.huntLoss ∈ (dueIn .shadow .held .huntLoss).due := by
  decide +kernel
/-- One report hears slot 7 and misses slot 8: the heard claim waits behind ORPHAN_TEST, and STRANDED comes first. -/
theorem test_heard_claim_follows_the_orphan_test :
    let t := (strandedAndSilent []).useFrame heardFrame
    t.due = [.orphanTest 8, .heard 7] ∧ (t.channel 5).phase = .stranded ∧
    (out (exec (.orphanTest 8) t)).du.events = [⟨.stranded, 6⟩, ⟨.unstranded, 5⟩] ∧
    (out (exec (.orphanTest 8) t)).due = [] := by decide +kernel
theorem witness_UsedFrame_tests :
    (strandedAndSilent []).slotsInOrder ∧ (∀ m, Due.heard m ∉ (strandedAndSilent []).due) ∧
    ((strandedAndSilent []).slot 8).state = .held ∧ ((strandedAndSilent []).channel 6).phase = .retired :=
  ⟨by unfold State.slotsInOrder; decide, fun _ h => (by cases h), by decide⟩
theorem witness_UsedFrame_events :
    ((channelIn .shadow .held).useFrame heardFrame).du.events = [⟨.peerAhead, 5⟩] ∧
    (((channelIn .shadow .held).useFrame heardFrame).useFrame heardFrame).du.events = [⟨.peerAhead, 5⟩] ∧
    (strandedAndSilent []).due = [] ∧ ((strandedAndSilent []).slot 7).channel = some 5 ∧
    ((strandedAndSilent []).channel 5).cause = some .silence ∧
    ({ strandedAndSilent [] with sc := { quietPart.sc with params := { Params.reset with orphanFrames := 801 } } }
      |>.useFrame heardFrame).du.events = [⟨.unstranded, 5⟩] := by decide +kernel
theorem witness_UsedFrameStoresRecordsAndStepsTheSlots :
    (channelIn .stranded .held).slotsInOrder ∧ ((channelIn .stranded .held).slot 7).state = .held ∧
    ((channelIn .stranded .held).slot 7).channel = some 5 ∧ ((channelIn .stranded .held).channel 5).slot = some 7 ∧
    heardFrame.records.length = 1 := ⟨by unfold State.slotsInOrder; decide, by decide⟩
theorem witness_Replies_none_outstanding : quietPart.sn.outstanding = none := rfl
theorem witness_RepliesResolveTheOutstandingNotice :
    let s (p : Phase) (k : NoticeKind) : State := { channelIn p .reserved with
      sn := { (channelIn p .reserved).sn with outstanding := some (outstandingOf k) } }
    (s .joining .join).sn.outstanding = some (outstandingOf .join) ∧ ((s .joining .join).channel 5).phase = .joining ∧
    ((s .joining .join).channel 5).slot = some 7 ∧ (s .joining .join).context 3 = some someContext ∧
    someContext.joinAttempts + 1 < 8 ∧ 8 ≤ ({ someContext with joinAttempts := 7 } : Context).joinAttempts + 1 ∧
    ((s .cutting .cut).channel 5).context = some 3 ∧ ((s .leaving .leave).channel 5).phase = .leaving ∧
    ((s .shadow .join).channel 5).phase ≠ .joining := by decide
theorem witness_PeerNoticesAreAnsweredOnce :
    let follow (p : Phase) (e : SlotState) : State := { channelIn p e with
      cl := { quietPart.cl with role := some .follow, link := .up } }
    (follow .joining .free).due = [] ∧ (follow .joining .free).sn.peer = none ∧
    (follow .joining .free).cl.role ≠ some .lead ∧ (follow .joining .free).channelsInOrder ∧
    ((follow .joining .free).slot 7).state = .free ∧ (follow .joining .free).cm = [(5, recordIn .joining)] ∧
    (recordIn .joining).label = some 9 ∧ ((follow .enrolled .free).context 0) = none ∧
    ((follow .proven .held).slot 7).channel = some 5 ∧ ((follow .proven .held).channel 5).slot = some 7 ∧
    ((follow .leaving .releasing).slot 7).state = .releasing ∧ ((follow .leaving .held).slot 7).state = .held ∧
    ((follow .leaving .held).channel 5).phase = .leaving ∧ ((follow .joining .free).channel 5).context = some 3 ∧
    (follow .joining .free).context 3 = some someContext :=
  ⟨rfl, rfl, by decide, by unfold State.channelsInOrder; decide, by decide⟩
theorem witness_PeerNotices_after_a_failed_request :
    let s : State := { channelIn .joining .held with due := [.linkUp, .joinFailed 5] }
    let f : NoticeField := ⟨some .join, 1, 8, 9, 0⟩
    s.due = [.linkUp] ++ [.joinFailed 5] ∧ ownStep (.joinFailed 5) = some (.joinFailed 5) ∧ s.sn.peer = none ∧
    ((s.takeNotice f).channel 5).phase = .enrolled ∧ (s.takeNotice f).due = [.linkUp] ∧
    (s.takeNotice f).du.events = [⟨.joinFailed, 5⟩] := by decide +kernel
theorem witness_SentFramesReadBackWhole :
    frame.records.length ≤ 1024 ∧ (∀ x ∈ frame.records.dropLast, x.last = false) ∧
    (frame.records.getLast?.map SlotRecord.last) = some true := by decide
theorem witness_StoreWriteGoesThroughItsStages :
    let s : State := { channelIn .retiring .held with
      sc := { quietPart.sc with queue := [request] }, due := [.storeWriteStart] }
    Due.storeWriteStart ∈ s.due ∧ s.sc.flight = none ∧ s.sc.queue = [request] ∧
    (writing .retiring .target .program).sc.flight = some ⟨request, .target, .program⟩ ∧
    (writing .retiring .target .program).store.programming = none ∧
    ({ writing .retiring .target .program with store := ⟨[], some (9, writtenRecord request .target)⟩ } : State).steady ∧
    (writing .retiring .reinstatement (.pause 0)).sc.flight = some ⟨request, .reinstatement, .pause 0⟩ ∧
    (writing .retiring .target .poll).due = [] ∧ (writing .retiring .target .poll).part = .running :=
  ⟨by decide, rfl, rfl, rfl, rfl, ⟨rfl, rfl, rfl⟩, rfl, rfl, rfl⟩
theorem witness_StoreWrite_points_of_a_transfer :
    let point (g : Stage) (n : Nat) : Option LineEvent := (writing .retiring .target g).transfer[n]?
    point .program 0 = some .start ∧ point .program 1 = some (.send 0xA0#8) ∧
    point .program 3 = some (.send 120#8) ∧ point .program 12 = some .stop ∧ point .program 13 = none ∧
    point .poll 1 = some (.send 0xA0#8) ∧ point .verify 0 = some (.send 0#8) ∧
    point .verify 2 = some .repeatedStart ∧ point .verify 11 = some (.receive false) ∧
    point .verify 13 = none := by decide +kernel
theorem witness_VerifiedWriteSettlesItsChannel :
    let s (p : Phase) (x : Purpose) : State := { writing p x .verify with
      store := ⟨Memory.writeBytes [] 120 (writtenRecord request x), none⟩ }
    (s .retiring .target).sc.flight = some ⟨request, .target, .verify⟩ ∧
    (s .retiring .target).store.cells.readBytes 120 8 = writtenRecord request .target ∧
    (s .recalling .reinstatement).store.cells.readBytes 120 8 = writtenRecord request .reinstatement ∧
    invertBits (writtenRecord request .target) 0 = writtenRecord request .target ∧
    invertBits (writtenRecord request .reinstatement) 0 = writtenRecord request .reinstatement ∧
    invertBits (writtenRecord request .target) 1 ≠ writtenRecord request .target ∧
    (s .retiring .target).cl.link = .up := by decide +kernel
/-- The record that the store holds was programmed with bit 0 wrong, and the line would hide just that bit: the attempt
fails. -/
theorem test_a_bad_record_never_reads_back_equal :
    let s : State := { writing .retiring .target .verify with
      store := ⟨Memory.writeBytes [] 120 (invertBits (writtenRecord request .target) 1), none⟩ }
    invertBits (s.store.cells.readBytes 120 8) 1 = writtenRecord request .target ∧
    (out (exec (.storeVerify 1) s)).sc.fault = true ∧
    ((out (exec (.storeVerify 1) s)).channel 5).phase = .retiring := by decide +kernel
theorem witness_EveryStepKeepsTheStoreTheQueuesAndTheRoutes :
    State.reset.memoryCanonical ∧ State.reset.eventsBounded ∧ State.reset.storeQueueBounded ∧
    (out (step State.reset)).du.events = [] ∧ (channelIn .carried .held).routesFollow ∧
    (channelIn .carried .held).channelsInOrder ∧ (channelIn .carried .held).slotsInOrder :=
  ⟨rfl, by unfold State.eventsBounded; decide, by unfold State.storeQueueBounded; decide, by decide +kernel,
    by unfold State.routesFollow; decide, by unfold State.channelsInOrder; decide, by unfold State.slotsInOrder; decide⟩
theorem witness_EveryStepKeepsTheBlocksConsistent :
    (carrying 0 []).channelsInOrder ∧ (carrying 0 []).slotsInOrder ∧ (carrying 0 []).consistent :=
  ⟨by unfold State.channelsInOrder; decide, by unfold State.slotsInOrder; decide, consistent_carrying _ _⟩
theorem witness_EveryStepKeepsTheBounds : (carrying 0 []).bounded := by
  have hc : ∀ c, (carrying 0 []).channel c = if (5 : Channel) = c then recordIn .carried else .reset := fun c => by
    unfold State.channel; show (Assoc.find [(5, recordIn .carried)] c).getD _ = _
    simp only [Assoc.find]; split <;> rfl
  refine ⟨fun c => ?_, fun c d l h1 h2 _ _ => ?_, ⟨by decide +kernel, fun h => absurd rfl h⟩, by decide, by decide⟩
  · dsimp only; rw [hc c]; split <;> simp [recordIn, ChannelRecord.reset]
  · rw [hc] at h1 h2
    split at h1
    · split at h2
      · simp_all
      · exact absurd rfl h2
    · exact absurd rfl h1

theorem witness_EveryStepKeepsTheRecords : (carrying 0 []).recorded := by
  have hc : ∀ c, (carrying 0 []).channel c = if (5 : Channel) = c then recordIn .carried else .reset := fun c => by
    unfold State.channel; show (Assoc.find [(5, recordIn .carried)] c).getD _ = _
    simp only [Assoc.find]; split <;> rfl
  refine ⟨fun c n _ h => ?_, ⟨by decide, fun r h => (by cases h)⟩, ⟨fun n b h => (by cases h), fun h => absurd rfl h⟩⟩
  rw [hc] at h
  split at h <;> simp [recordIn, ChannelRecord.reset] at h
theorem witness_Records_named :
    let s : State := { channelIn .retired .held with
      store := ⟨Memory.writeBytes [] 120 (writtenRecord request .target), none⟩ }
    (s.channel 5).slot = some 7 ∧ (s.channel 5).phase = .retired ∧ s.recordNames 7 5 ∧ s.writes = [] ∧
    (writing .retiring .target .program).writes = [request] :=
  ⟨rfl, rfl, by unfold State.recordNames; decide +kernel, rfl, rfl⟩

end Sys2Proof.Tests
end

section
/-! SUPPORT. The bus rows with no own step due: the regions of R2 as the statements say them, what the classes of R4 leave
of a plain access, and what a sample read makes of the pairing register; and the statements that they settle. -/

namespace Sys2Proof.Machine

/-! ## Regions (R2) -/

/-- An address has an offset below an extent exactly when it lies that far above the base. -/
theorem offsetIn_eq_some {base a : Addr} {extent k : Nat} :
    offsetIn base extent a = some k ↔ a.toNat = base.toNat + k ∧ k < extent := by
  unfold offsetIn
  split
  · rw [Option.some_inj]; omega
  · simp only [reduceCtorEq, false_iff]; omega

/-- The address is the word of a region that the region's offset names (R2). -/
def Bases.wordOf (b : Bases) (a : Addr) : Region → Prop
  | .sample k => b.sampleAt a k
  | .route k => b.routeAt a k
  | .directive k => b.directiveAt a k
  | .report k => b.reportAt a k
  | .outside => True

/-- Whatever region an address is put in, it is the word of that region that its offset names. -/
theorem wordOf_regionOf (b : Bases) (a : Addr) : b.wordOf a (regionOf b a) := by
  unfold regionOf
  cases hs : offsetIn b.sample 4096 a with
  | some k => exact offsetIn_eq_some.mp hs
  | none =>
    cases hr : offsetIn b.route 2048 a with
    | some k => exact offsetIn_eq_some.mp hr
    | none =>
      cases hd : offsetIn b.directive 24 a with
      | none => trivial
      | some k =>
        obtain ⟨hat, hlt⟩ := offsetIn_eq_some.mp hd
        by_cases hk : k < 8
        · simp only [if_pos hk]; exact ⟨hat, hk⟩
        · simp only [if_neg hk]; exact ⟨by omega, by omega⟩

/-- A word of the sample store is put in the sample store, wherever the other regions lie. -/
theorem regionOf_sampleAt {b : Bases} {a : Addr} {k : Nat} (h : b.sampleAt a k) : regionOf b a = .sample k := by
  unfold regionOf; rw [offsetIn_eq_some.mpr h]

/-! ## One access -/

/-- An access passed unchanged, as the statements say it. -/
theorem pass_eq (s : State) (x : Access) : s.pass x = { s with ports := s.ports.passed x } := by
  obtain ⟨m, a, op⟩ := x
  cases op <;> rfl

/-- A plain access is in none of the classes that the part acts on (R4, R5). -/
theorem classified_of_plain {b : Bases} {x : Access} (h : b.plain x) (s : State) : s.classified b x = s.pass x := by
  obtain ⟨m, a, op⟩ := x
  have hword := wordOf_regionOf b a
  unfold State.classified
  dsimp only
  generalize regionOf b a = r at hword ⊢
  cases m with
  | engine =>
    cases op with
    | write w =>
      cases r with
      | sample k => exact absurd hword (h k)
      | _ => rfl
    | read w =>
      cases r with
      | sample k => exact absurd hword (h k).1
      | route k => exact absurd hword (h k).2
      | _ => rfl
  | controller =>
    cases op with
    | write w =>
      cases r with
      | directive k => exact absurd hword (h k)
      | _ => rfl
    | read w =>
      cases r with
      | report k => exact absurd hword (h k)
      | _ => rfl

/-- A bus row in RUNNING with no own step due: its access is taken by its class (R3, R4). -/
theorem exec_busAccess_steady {i : Instr} {x : Access} {b : Bases} {s : State} (hi : busAccess i = some x)
    (hs : s.steady) (hb : s.bi.bases = some b) : exec i s = .next (s.classified b x) := by
  obtain ⟨hpart, hreset, hdue⟩ := hs
  rw [exec_busAccess hi, busRow_of_due_nil hdue]
  unfold State.access
  rw [if_pos ⟨hpart, hreset⟩, hb]

/-- Settles O21: a plain access falls in none of the classes of R4 that the part acts on. -/
theorem plainAccessPassesUnchanged : Obligations.PlainAccessPassesUnchanged := by
  intro i x b s hi hs hb hplain
  rw [exec_busAccess_steady hi hs hb, classified_of_plain hplain, pass_eq]

/-! ## Words the part makes (R17) -/

/-- Parity that the part generates is good. -/
@[simp] theorem parityGood_freshParity (w : Word) : parityGood (freshParity w) = true := by
  simp [parityGood, freshParity]

/-- A substituted word keeps the line flags. -/
theorem substituted_flags (w : Word) (p : Pattern) :
    (substituted w p).data.extractLsb' 12 4 = w.extractLsb' 12 4 :=
  BitVec.extractLsb'_append_eq_left

/-- A substituted word carries the 12-bit word put in. -/
theorem substituted_pattern (w : Word) (p : Pattern) : (substituted w p).data.extractLsb' 0 12 = p :=
  BitVec.extractLsb'_append_eq_right

/-- The idle pattern of a channel whose record holds one. -/
theorem idleOf_of_some {s : State} {c : Channel} {q : Pattern} (h : (s.channel c).idle = some q) : s.idleOf c = q := by
  unfold State.idleOf; rw [h]; rfl

/-! ## Sample reads (R12, R13) -/

/-- A sample read in RUNNING with no own step due acts on the pairing register. -/
theorem exec_sampleRead_steady {a : Addr} {b : Bases} {k : Nat} {s : State} (w : BusWord) (hs : s.steady)
    (hb : s.bi.bases = some b) (ha : b.sampleAt a k) :
    exec (.sampleRead a w) s = .next (s.sampleReadAt .engine a w) := by
  rw [exec_busAccess_steady rfl hs hb]
  unfold State.classified
  dsimp only
  rw [regionOf_sampleAt ha]

/-- The captures after a sample read of `w` has completed the pairing `p`. -/
def State.capturesCompleting (s : State) (p : Pairing) (w : BusWord) : Assoc Channel Capture :=
  if p.wanted = true then
    Assoc.put s.cl.captures p.channel ⟨p.supervision ++ w.data.extractLsb' 0 8, p.damaged || !parityGood w⟩
  else s.cl.captures

theorem find_capturesCompleting_wanted {s : State} {p : Pairing} (w : BusWord) (h : p.wanted = true) :
    Assoc.find (s.capturesCompleting p w) p.channel =
      some ⟨p.supervision ++ w.data.extractLsb' 0 8, p.damaged || !parityGood w⟩ := by
  unfold State.capturesCompleting; rw [if_pos h, Assoc.find_put_same]

theorem find_capturesCompleting_other {s : State} {p : Pairing} {d : Channel} (w : BusWord)
    (h : ¬ (d = p.channel ∧ p.wanted = true)) :
    Assoc.find (s.capturesCompleting p w) d = Assoc.find s.cl.captures d := by
  unfold State.capturesCompleting
  split
  · rename_i hw
    exact Assoc.find_put_other _ _ fun hd => h ⟨hd, hw⟩
  · rfl

/-- The sample code of a sample word is its low byte. -/
theorem codeOf_sampleOf (w : Word) : codeOf (sampleOf w) = w.extractLsb' 0 8 := by
  unfold codeOf sampleOf
  exact BitVec.extractLsb'_extractLsb'_of_le (by decide)

/-- An unpaired sample read passes (R12). -/
theorem sampleReadAt_unpaired {s : State} (h : s.bi.pairing = none) (m : Master) (a : Addr) (w : BusWord) :
    s.sampleReadAt m a w = s.pass ⟨m, a, .read w⟩ := by
  unfold State.sampleReadAt; rw [h]; rfl

/-- A sample read that completes a pairing changes the pairing register, the captures and the ports only (R12, R13). -/
theorem sampleReadAt_paired {s : State} {p : Pairing} (h : s.bi.pairing = some p) (m : Master) (a : Addr) (w : BusWord) :
    s.sampleReadAt m a w = { s with
      bi := { s.bi with pairing := none }
      cl := { s.cl with captures := s.capturesCompleting p w }
      ports := { s.ports with
        storeSide := some (.read m a), returned := some (s.sampleReturned p.channel w) } } := by
  unfold State.sampleReadAt State.capturesCompleting
  rw [h]
  dsimp only
  split
  · rw [codeOf_sampleOf]; rfl
  · rfl

theorem sampleReturned_pass {s : State} {c : Channel} (h : (s.channel c).active.out = .pass) (w : BusWord) :
    s.sampleReturned c w = w := by
  unfold State.sampleReturned; rw [h]

theorem sampleReturned_idle {s : State} {c : Channel} {q : Pattern} (h : (s.channel c).active.out = .idle)
    (hq : (s.channel c).idle = some q) (w : BusWord) : s.sampleReturned c w = substituted w.data q := by
  unfold State.sampleReturned; rw [h, idleOf_of_some hq]

/-- Settles O26, by the pairing register: with it OPEN the state after is `sampleReadAt_paired`'s. -/
theorem sampleReadCompletesThePairing : Obligations.SampleReadCompletesThePairing := by
  intro a w k b s hs hb ha
  rw [exec_sampleRead_steady w hs hb ha]
  refine ⟨fun hempty => by rw [sampleReadAt_unpaired hempty, pass_eq], fun p hp => ?_⟩
  rw [sampleReadAt_paired hp]
  refine ⟨_, rfl, rfl, rfl, rfl, rfl, find_capturesCompleting_wanted w, fun d => find_capturesCompleting_other w,
    fun hout => ?_, fun q hout hq => ?_⟩
  · rw [sampleReturned_pass hout]
  · rw [sampleReturned_idle hout hq]
    exact ⟨_, rfl, parityGood_freshParity _, substituted_flags _ _, substituted_pattern _ _⟩

end Sys2Proof.Machine
end

section
/-! SUPPORT. The settled state (log 1): what the first due step leaves of it, which rows meet it, and what a boundary row
makes of it by its order and of a frame still being sent; and the statement that they settle. -/

namespace Sys2Proof.Machine

/-! ## Taking the due steps -/

theorem settled_settled (s : State) : s.settled.settled = s.settled := settled_of_due_nil (settled_due s)

theorem takeFirst_cons {d : Due} {rest : List Due} {s : State} (h : s.due = d :: rest) :
    s.takeFirst = effect d { s with due := rest } := by
  unfold State.takeFirst; rw [h]

/-- The row of the first due step takes it. -/
theorem own_cons {d : Due} {rest : List Due} {s : State} (h : s.due = d :: rest) :
    own d s = effect d { s with due := rest } := by
  rw [own_of_mem (by rw [h]; exact List.mem_cons_self), h, List.erase_cons_head]

/-- Within the bound, the settled state is that of the state with the first due step taken. -/
theorem settled_cons {n : Nat} {d : Due} {rest : List Due} {s : State} (h : s.due = d :: rest)
    (hw : s.settlesWithin (n + 1)) (hn : n + 1 ≤ Config.settleBound) :
    s.settled = (effect d { s with due := rest }).settled ∧ (effect d { s with due := rest }).settlesWithin n := by
  have hne : s.due ≠ [] := by rw [h]; exact List.cons_ne_nil d rest
  rw [← takeFirst_cons h]
  exact ⟨settled_of_settlesWithin hne hw hn, hw.resolve_left hne⟩

/-- The steps that a boundary may leave due are the three proof claims (R25, R28, R61). -/
theorem floats_iff (d : Due) : d.floats = true ↔
    (∃ c k l, d = .proofSuccess c k l) ∨ (∃ c k, d = .proofFailure c k) ∨ ∃ c k, d = .demotion c k := by
  cases d <;> simp [Due.floats]

/-! ## Rows that meet the settled state -/

/-- A row that acts on the settled state alone answers there what it answers before. -/
theorem exec_settled_of_eq {i : Instr} {F : State → State} (h : ∀ s, exec i s = .next (F s.settled)) (s : State) :
    exec i s = exec i s.settled := by
  rw [h, h, settled_settled]

/-- Every row from outside but the boundaries, the resets and the load acts on the settled state alone. -/
theorem exec_settled {i : Instr}
    (h : (busAccess i).isSome = true ∨ i = .directiveRun ∨ i = .frameSent ∨ (∃ bytes, i = .frameArrival bytes) ∨
      i = .pageWriteEnd ∨ (∃ answer, i = .storePoll answer) ∨ i = .pollTimeout ∨ (∃ w, i = .storeVerify w) ∨
      ∃ fault, i = .missingAck fault) (s : State) : exec i s = exec i s.settled := by
  obtain hbus | rfl | rfl | ⟨bytes, rfl⟩ | rfl | ⟨answer, rfl⟩ | rfl | ⟨w, rfl⟩ | ⟨fault, rfl⟩ := h
  · obtain ⟨x, hx⟩ := Option.isSome_iff_exists.mp hbus
    exact exec_settled_of_eq (F := fun t => t.access ⟨x.master, x.addr, x.op⟩) (exec_busAccess hx) s
  · exact exec_settled_of_eq (F := State.runDirective) (fun _ => rfl) s
  · exact exec_settled_of_eq (F := State.reportSent) (fun _ => rfl) s
  · exact exec_settled_of_eq
      (F := fun t => if t.part = .running ∧ t.resetHeld = false then t.takeArrival bytes else t) (fun _ => rfl) s
  · exact exec_settled_of_eq (F := State.pageWriteEnd) (fun _ => rfl) s
  · exact exec_settled_of_eq (F := fun t => t.storePoll answer) (fun _ => rfl) s
  · exact exec_settled_of_eq (F := State.pollTimeout) (fun _ => rfl) s
  · exact exec_settled_of_eq (F := fun t => t.storeVerify w) (fun _ => rfl) s
  · exact exec_settled_of_eq (F := fun t => t.missingAck fault) (fun _ => rfl) s

/-! ## The boundary rows -/

/-- A row that makes a boundary makes it in order, and on every settled state with its timer without regard to the order
of the claims; `f` is what the row does to the mark after it. -/
theorem exec_boundary_row_settled {i : Instr} {o : BoundaryOrder} {s : State} (h : boundaryOf i s = some o) :
    ∃ f, exec i s = .next ((s.timed i).orderedBoundary o f) ∧
      ∀ u : State, u.ft = (s.timed i).ft → u.resetHeld = (s.timed i).resetHeld →
        exec i u.settled = .next (f (u.settled.boundary o)) := by
  obtain ⟨f, -, hs, hrow⟩ := exec_boundary_row h
  refine ⟨f, hs, fun u hft hreset => ?_⟩
  have hframe := frame_settled u
  have hreset' : u.settled.resetHeld = s.resetHeld :=
    ((frame_resetHeld hframe).trans hreset).trans (timed_resetHeld s i)
  rw [hrow _ ((frame_ft hframe).trans hft) hreset', orderedBoundary_of_due_nil (settled_due u)]

/-- A boundary that leaves no claim due is that of the settled state (log 2). -/
theorem orderedBoundary_eq_settled {s : State} {o : BoundaryOrder}
    (h : o.claimsFirst = true ∨ .passed ∈ s.due ∨ s.due.filter Due.floats = []) (f : State → State) :
    s.orderedBoundary o f = f (s.settled.boundary o) := by
  obtain hfirst | hnone := h
  · unfold State.orderedBoundary; rw [if_pos hfirst]
  · exact orderedBoundary_of_floating_nil (floating_eq_nil hnone) o f

/-! ## A frame still being sent -/

/-- FRAME_SENT leaves the frame as it is, but for the frame being sent, which is none. -/
theorem frame_reportSent (s : State) :
    s.reportSent.frame = State.frame { s with cl := { s.cl with sending := none } } := by
  unfold State.reportSent
  split
  · rename_i hnone
    simp only [State.frame, hnone]
  · split
    · rfl
    · dsimp only
      split
      · split <;> rfl
      · rfl

theorem reportSent_ft (s : State) : s.reportSent.ft = s.ft := (frame_ft (frame_reportSent s) :)

theorem reportSent_resetHeld (s : State) : s.reportSent.resetHeld = s.resetHeld :=
  (frame_resetHeld (frame_reportSent s) :)

/-- With no frame being sent there is nothing to report. -/
theorem reportSent_of_sending_none {s : State} (h : s.cl.sending = none) : s.reportSent = s := by
  unfold State.reportSent; rw [h]

/-- A frame still being sent has gone out before the boundary (section 4.1): the boundary is that of the state after
FRAME_SENT and the expiry that it brings due. -/
theorem boundary_reportSent {s : State} (h : s.part = .running) (o : BoundaryOrder) :
    s.boundary o = s.reportSent.settled.boundary o := by
  obtain ⟨-, -, hpart, hsent⟩ := frame_keeps ((frame_settled s.reportSent).trans (frame_reportSent s))
  unfold State.boundary
  rw [if_pos h, if_pos (hpart.trans h), reportSent_of_sending_none hsent, settled_settled]

/-! ## The boundary rows and the settled state -/

/-- A boundary whose order takes the claims first, or that has none to leave due, meets the settled state (log 2). -/
theorem exec_boundary_claims_taken {i : Instr} {o : BoundaryOrder} {s : State} (h : boundaryOf i s = some o)
    (hc : o.claimsFirst = true ∨ .passed ∈ s.due ∨ s.due.filter Due.floats = []) :
    exec i s = exec i (s.timed i).settled := by
  obtain ⟨f, hs, hsettled⟩ := exec_boundary_row_settled h
  rw [hs, hsettled _ rfl rfl, orderedBoundary_eq_settled (by rwa [timed_due])]

/-- A boundary that leaves claims due meets the state in which the other steps have been taken, and the mark stands
behind what it leaves (log 2). -/
theorem exec_boundary_claims_left {i : Instr} {o : BoundaryOrder} {s : State} (h : boundaryOf i s = some o)
    (hlast : o.claimsFirst = false) (hmark : .passed ∉ s.due) (hc : s.due.filter Due.floats ≠ []) :
    ∃ t, exec i (State.settled { s.timed i with due := s.due.filter fun d => !d.floats }) = .next t ∧
      exec i s = .next { t with due := t.due ++ s.due.filter Due.floats ++ [.passed] } := by
  obtain ⟨f, hs, hsettled⟩ := exec_boundary_row_settled h
  refine ⟨_, hsettled _ rfl rfl, ?_⟩
  rw [hs, orderedBoundary_of_floating (by rwa [timed_due]) (by rwa [timed_due]) hlast, timed_due]

/-- In RUNNING with nothing due, a boundary meets the state after FRAME_SENT and what that brings due. -/
theorem exec_boundary_frame_sent {i : Instr} {o : BoundaryOrder} {s : State} (h : boundaryOf i s = some o)
    (hdue : s.due = []) (hpart : s.part = .running) :
    exec .frameSent (s.timed i) = .next (s.timed i).reportSent ∧
      exec i s = exec i (s.timed i).reportSent.settled := by
  obtain ⟨f, hs, hsettled⟩ := exec_boundary_row_settled h
  have hdue' : (s.timed i).due = [] := (timed_due s i).trans hdue
  refine ⟨?_, ?_⟩
  · show Host.Outcome.next (s.timed i).settled.reportSent = _
    rw [settled_of_due_nil hdue']
  · rw [hs, hsettled _ (reportSent_ft _) (reportSent_resetHeld _), orderedBoundary_of_due_nil hdue',
      boundary_reportSent ((timed_part s i).trans hpart)]

/-- Settles O4: the first due step is taken by its row (`settled_cons`), a boundary goes by the order of the claims and by
the frame being sent, and every other row from outside acts on the settled state alone (`exec_settled`). -/
theorem outsideCommandsMeetSettledState : Obligations.OutsideCommandsMeetSettledState := by
  refine ⟨fun s => settled_of_due_nil, fun d rest s hdue hw => ?_, floats_iff, fun i o s h => ?_,
    fun i s => ⟨settled_due s, fun h => exec_settled h s⟩⟩
  · have hfirst := settled_cons (n := 65535) hdue hw (Nat.le_refl _)
    refine ⟨fun i hi => ⟨_, ?_, hfirst⟩, ?_, ?_⟩
    · rw [exec_ownStep hi, own_cons hdue]
    · rintro n rfl
      exact hfirst
    · rintro rfl
      exact hfirst
  · exact ⟨exec_boundary_claims_taken h, exec_boundary_claims_left h,
      fun hdue hpart => ⟨_, exec_boundary_frame_sent h hdue hpart⟩⟩

end Sys2Proof.Machine
end

section
/-! SUPPORT. The rows of due steps that take one claim (R27): a claim that is accepted gives the state after, and a stale
one leaves the state with the step taken off the list; demotion and a failed cut, with the statement that they settle. -/

namespace Sys2Proof.Machine

/-! ## The row of a claim -/

/-- The row of a due step whose effect is a claim answers what the accepted claim makes of the state with the step taken
off the list. -/
theorem exec_of_claim_accepted {i : Instr} {d : Due} {s u : State} {claim : State → Option State}
    (hi : ownStep i = some d) (heffect : ∀ t, effect d t = (claim t).getD t) (hd : d ∈ s.due)
    (hu : claim { s with due := s.due.erase d } = some u) : exec i s = .next u := by
  rw [exec_ownStep hi, own_of_mem hd, heffect, hu, Option.getD_some]

/-- A due step whose claim is stale is taken off the list, and changes nothing else. -/
theorem exec_of_claim_stale {i : Instr} {d : Due} {s : State} {claim : State → Option State}
    (hi : ownStep i = some d) (heffect : ∀ t, effect d t = (claim t).getD t) (hd : d ∈ s.due)
    (hstale : claim { s with due := s.due.erase d } = none) :
    exec i s = .next { s with due := s.due.erase d } := by
  rw [exec_ownStep hi, own_of_mem hd, heffect, hstale, Option.getD_none]

/-! ## Demotion and cut failed -/

namespace State

/-- The demotion claim is accepted in PROVEN and CUTTING with the context matching (R33). -/
theorem claimDemotion_isSome_iff {s : State} {c : Channel} {k : CtxNo} : (s.claimDemotion c k).isSome = true ↔
    ((s.channel c).phase = .proven ∨ (s.channel c).phase = .cutting) ∧ (s.channel c).context = some k := by
  unfold claimDemotion
  dsimp only
  split
  next hvalid => exact iff_of_true rfl hvalid
  next hstale => exact iff_of_false Bool.false_ne_true hstale

/-- The cut-failed claim is accepted in CUTTING with the slot matching (R35). -/
theorem claimCutFailed_isSome_iff {s : State} {c : Channel} {n : SlotNo} : (s.claimCutFailed c n).isSome = true ↔
    (s.channel c).phase = .cutting ∧ (s.channel c).slot = some n := by
  unfold claimCutFailed
  split
  next hvalid => exact iff_of_true rfl hvalid
  next hstale => exact iff_of_false Bool.false_ne_true hstale

/-- Cut failed (R35): the channel's phase and pending route change, and the event is raised; no block but CM and DU acts. -/
theorem claimCutFailed_spec {s u : State} {c : Channel} {n : SlotNo} (hu : s.claimCutFailed c n = some u) :
    u.channel c = (s.channel c).moved .proven .pass .pass .shadow ∧ keepsOtherChannels c s u ∧ u.cp = s.cp ∧
    u.sn = s.sn ∧ u.du = s.du.raised .cutFailed c ∧ u.claimFrame = s.claimFrame ∧ u.due = s.due := by
  have hvalid := claimCutFailed_isSome_iff.mp (Option.isSome_of_eq_some hu)
  unfold claimCutFailed at hu
  rw [if_pos hvalid, Option.some_inj] at hu
  subst hu
  refine ⟨?_, fun d hd => ?_, by simp, by simp, by simp [raise_du_raised], by simp, by simp⟩
  · rw [channel_raise, channel_modChannel_same]; rfl
  · rw [channel_raise, channel_modChannel_other _ _ hd]

end State

/-- Settles O48: each row takes its claim (`exec_of_claim_accepted`, `exec_of_claim_stale`), which is accepted as R33 and
R35 say and then does what `claimDemotion_spec` and `claimCutFailed_spec` say. -/
theorem demotionRestartsProofAndCutFailedReturns : Obligations.DemotionRestartsProofAndCutFailedReturns := by
  intro c k n s r
  refine ⟨fun hd hstale => ?_, fun hd hphase hcontext => ?_, fun hd hstale => ?_, fun hd hphase hslot => ?_⟩
  · exact exec_of_claim_stale rfl (fun _ => rfl) hd
      (Option.not_isSome_iff_eq_none.mp (mt State.claimDemotion_isSome_iff.mp hstale))
  · obtain ⟨t, ht⟩ := Option.isSome_iff_exists.mp
      (State.claimDemotion_isSome_iff (s := { s with due := s.due.erase (.demotion c k) }).mpr ⟨hphase, hcontext⟩)
    obtain ⟨-, -, hspec⟩ := State.claimDemotion_spec ht
    exact ⟨t, exec_of_claim_accepted rfl (fun _ => rfl) hd ht, hspec⟩
  · exact exec_of_claim_stale rfl (fun _ => rfl) hd
      (Option.not_isSome_iff_eq_none.mp (mt State.claimCutFailed_isSome_iff.mp hstale))
  · obtain ⟨t, ht⟩ := Option.isSome_iff_exists.mp
      (State.claimCutFailed_isSome_iff (s := { s with due := s.due.erase (.cutFailed c n) }).mpr ⟨hphase, hslot⟩)
    exact ⟨t, exec_of_claim_accepted rfl (fun _ => rfl) hd ht, State.claimCutFailed_spec ht⟩

end Sys2Proof.Machine
end

section
/-! SUPPORT. One unit from the carrier link: the tests of R72 on its bytes, read off the model's parser part by part,
and what an invalid unit leaves (R73, R80); and the statement that they settle. -/

namespace Sys2Proof.Machine

/-! ## The header's fields (R176) -/

/-- Two bytes are the two halves of a word exactly when each is its own half. -/
theorem wordOf_eq_append_iff {hi lo a b : Byte} : wordOf hi lo = a ++ b ↔ hi = a ∧ lo = b := by
  unfold wordOf
  refine ⟨fun h => ?_, fun ⟨ha, hb⟩ => by rw [ha, hb]⟩
  have hhi := congrArg (BitVec.extractLsb' 8 8) h
  have hlo := congrArg (BitVec.extractLsb' 0 8) h
  rw [BitVec.extractLsb'_append_eq_left, BitVec.extractLsb'_append_eq_left] at hhi
  rw [BitVec.extractLsb'_append_eq_right, BitVec.extractLsb'_append_eq_right] at hlo
  exact ⟨hhi, hlo⟩

/-- A byte of a unit; 0 behind its end. -/
def byteAt (unit : List Byte) (i : Nat) : Byte := unit.getD i 0

/-- The record count of a unit's header: the low three bits of byte 4 above byte 5. -/
def recordCount (unit : List Byte) : Nat := (byteAt unit 4).toNat % 8 * 256 + (byteAt unit 5).toNat

/-- The count as the parser reads it, eleven bits wide. -/
theorem toNat_count_eq (b4 b5 : Byte) :
    (b4.extractLsb' 0 3 ++ b5 : BitVec 11).toNat = b4.toNat % 8 * 256 + b5.toNat := by
  rw [BitVec.toNat_append, BitVec.extractLsb'_toNat, Nat.shiftRight_zero, ← Nat.shiftLeft_add_eq_or_of_lt b5.isLt,
    Nat.shiftLeft_eq]

/-! ## The records behind the header -/

/-- Every whole number of five-byte groups is read as records. -/
theorem readRecords_isSome {n : Nat} {bytes : List Byte} (h : bytes.length = 5 * n) :
    (readRecords bytes).isSome = true := by
  induction n generalizing bytes with
  | zero => rw [List.eq_nil_of_length_eq_zero h]; rfl
  | succ n ih =>
    have hfive : 5 ≤ bytes.length := by omega
    match bytes, hfive with
    | b0 :: b1 :: b2 :: b3 :: b4 :: rest, _ =>
      rw [readRecords, Option.isSome_map]
      exact ih (Nat.add_right_cancel (m := 5) h)

/-- The records read have five bytes each, and LAST of a record is bit 3 of its second byte. -/
theorem readRecords_eq_some {bytes : List Byte} {records : List ReceivedRecord} (h : readRecords bytes = some records) :
    bytes.length = 5 * records.length ∧
      ∀ k (hk : k < records.length), records[k].fields.last = (byteAt bytes (5 * k + 1)).getLsbD 3 := by
  induction bytes using readRecords.induct generalizing records with
  | case1 =>
    rw [readRecords, Option.some_inj] at h
    subst h
    exact ⟨rfl, fun k hk => absurd hk k.not_lt_zero⟩
  | case2 b0 b1 b2 b3 b4 rest ih =>
    rw [readRecords, Option.map_eq_some_iff] at h
    obtain ⟨t, ht, rfl⟩ := h
    obtain ⟨hlength, hlast⟩ := ih ht
    refine ⟨by simp only [List.length_cons]; omega, fun k hk => ?_⟩
    cases k with
    | zero => rfl
    | succ k => exact hlast k (Nat.lt_of_succ_lt_succ hk)
  | case3 bytes _ _ => simp [readRecords] at h

/-- The model's test of LAST, record by record. -/
theorem lastOnlyAtEnd_iff (records : List ReceivedRecord) : lastOnlyAtEnd records = true ↔
    ∀ k (hk : k < records.length), records[k].fields.last = decide (k + 1 = records.length) := by
  induction records using lastOnlyAtEnd.induct with
  | case1 => exact iff_of_true rfl fun k hk => absurd hk k.not_lt_zero
  | case2 r => simp [lastOnlyAtEnd]
  | case3 r t hne ih =>
    have hfirst : decide (0 + 1 = (r :: t).length) = false := by
      rw [decide_eq_false_iff_not, List.length_cons]
      exact fun h => hne (List.eq_nil_of_length_eq_zero (Nat.succ_inj.mp h).symm)
    rw [lastOnlyAtEnd.eq_3 _ _ hne, Bool.and_eq_true, ih, Bool.not_eq_true']
    constructor
    · rintro ⟨hr, ht⟩ (_ | k) hk
      · exact hr.trans hfirst.symm
      · simpa using ht k (Nat.lt_of_succ_lt_succ hk)
    · refine fun h => ⟨(h 0 (Nat.succ_pos _)).trans hfirst, fun k hk => ?_⟩
      simpa using h (k + 1) (Nat.succ_lt_succ hk)

/-- Bytes hold `n` records with LAST on the last alone exactly when there are five for each record and bit 3 of a
record's second byte stands in the last record alone. -/
theorem holdsRecords_iff (bytes : List Byte) (n : Nat) :
    (∃ records, readRecords bytes = some records ∧ records.length = n ∧ lastOnlyAtEnd records = true) ↔
      bytes.length = 5 * n ∧ ∀ k, k < n → (byteAt bytes (5 * k + 1)).getLsbD 3 = decide (k + 1 = n) := by
  constructor
  · rintro ⟨records, hread, rfl, hend⟩
    obtain ⟨hlength, hlast⟩ := readRecords_eq_some hread
    exact ⟨hlength, fun k hk => (hlast k hk).symm.trans ((lastOnlyAtEnd_iff records).mp hend k hk)⟩
  · rintro ⟨hlength, hbits⟩
    obtain ⟨records, hread⟩ := Option.isSome_iff_exists.mp (readRecords_isSome hlength)
    obtain ⟨hlength', hlast⟩ := readRecords_eq_some hread
    obtain rfl : records.length = n := by omega
    exact ⟨records, hread, rfl, (lastOnlyAtEnd_iff records).mpr fun k hk => (hlast k hk).trans (hbits k hk)⟩

/-! ## The judgement of a unit (R72) -/

/-- A unit shorter than a header is invalid. -/
theorem readFrame_of_short {bytes : List Byte} (h : bytes.length < 16) : readFrame bytes = none := by
  unfold readFrame
  split
  next => simp only [List.length_cons] at h; omega
  next => rfl

/-- A unit with a whole header is valid by its first two bytes, its check word, its count and the records behind it. -/
theorem readFrame_isSome_of_header {bytes : List Byte} (h : 16 ≤ bytes.length) : (readFrame bytes).isSome = true ↔
    wordOf (byteAt bytes 0) (byteAt bytes 1) = 0x3AC5#16 ∧
    crc (bytes.take 14) = wordOf (byteAt bytes 14) (byteAt bytes 15) ∧ recordCount bytes ≤ 1024 ∧
    ∃ records, readRecords (bytes.drop 16) = some records ∧ records.length = recordCount bytes ∧
      lastOnlyAtEnd records = true := by
  match bytes, h with
  | b0 :: b1 :: b2 :: b3 :: b4 :: b5 :: b6 :: b7 :: b8 :: b9 :: b10 :: b11 :: b12 :: b13 :: b14 :: b15 :: rest, _ =>
    cases hread : readRecords rest with
    | none => simp [readFrame, hread]
    | some records => simp [readFrame, hread, byteAt, recordCount, toNat_count_eq]

/-- The tests of R72 on the bytes of a unit. -/
theorem readFrame_isSome_iff (bytes : List Byte) : (readFrame bytes).isSome = true ↔
    16 ≤ bytes.length ∧ byteAt bytes 0 = 0x3A#8 ∧ byteAt bytes 1 = 0xC5#8 ∧
    crc (bytes.take 14) = byteAt bytes 14 ++ byteAt bytes 15 ∧ recordCount bytes ≤ 1024 ∧
    bytes.length = 16 + 5 * recordCount bytes ∧
    ∀ k, k < recordCount bytes →
      (byteAt bytes (16 + 5 * k + 1)).getLsbD 3 = decide (k + 1 = recordCount bytes) := by
  by_cases h : 16 ≤ bytes.length
  · have hbehind (i : Nat) : byteAt (bytes.drop 16) i = byteAt bytes (16 + i) := by
      simp [byteAt, List.getD_eq_getElem?_getD]
    have hlength : (bytes.drop 16).length = 5 * recordCount bytes ↔ bytes.length = 16 + 5 * recordCount bytes := by
      rw [List.length_drop]; omega
    have hopening : wordOf (byteAt bytes 0) (byteAt bytes 1) = 0x3AC5#16 ↔
        byteAt bytes 0 = 0x3A#8 ∧ byteAt bytes 1 = 0xC5#8 := wordOf_eq_append_iff (a := 0x3A#8) (b := 0xC5#8)
    rw [readFrame_isSome_of_header h, holdsRecords_iff, hlength, hopening, and_iff_right h, and_assoc]
    simp only [hbehind, Nat.add_assoc, wordOf]
  · rw [readFrame_of_short (Nat.lt_of_not_le h)]
    exact iff_of_false Bool.false_ne_true fun hvalid => h hvalid.1

/-! ## An invalid unit (R73, R80) -/

/-- With no own step due, a unit is judged in RUNNING and outside the reset alone (R72). -/
theorem exec_frameArrival_of_due_nil (bytes : List Byte) {s : State} (hdue : s.due = []) :
    exec (.frameArrival bytes) s =
      .next (if s.part = .running ∧ s.resetHeld = false then s.takeArrival bytes else s) := by
  show Host.Outcome.next
    (if s.settled.part = .running ∧ s.settled.resetHeld = false then s.settled.takeArrival bytes else s.settled) = _
  rw [settled_of_due_nil hdue]

theorem exec_frameArrival_not_judged (bytes : List Byte) {s : State} (hdue : s.due = [])
    (h : s.part ≠ .running ∨ s.resetHeld = true) : exec (.frameArrival bytes) s = .next s := by
  have hnot : ¬ (s.part = .running ∧ s.resetHeld = false) := fun ⟨hpart, hreset⟩ =>
    h.elim (· hpart) fun hheld => Bool.false_ne_true (hreset.symm.trans hheld)
  rw [exec_frameArrival_of_due_nil bytes hdue, if_neg hnot]

theorem takeArrival_invalid {bytes : List Byte} (h : readFrame bytes = none) (s : State) :
    s.takeArrival bytes = s.takeInvalid := by
  unfold State.takeArrival
  rw [h]

theorem exec_frameArrival_invalid {bytes : List Byte} {s : State} (hs : s.steady) (h : readFrame bytes = none) :
    exec (.frameArrival bytes) s = .next s.takeInvalid := by
  obtain ⟨hpart, hreset, hdue⟩ := hs
  rw [exec_frameArrival_of_due_nil bytes hdue, if_pos ⟨hpart, hreset⟩, takeArrival_invalid h]

theorem takeInvalid_cl (s : State) : s.takeInvalid.cl =
    if s.cl.link = .hunting then
      { s.cl with markGood := false, link := .dark, lossCount := 0, huntCount := 0, lastNumber := none }
    else { s.cl with markGood := false } := by
  unfold State.takeInvalid
  split <;> rfl

/-- An invalid unit reaches the link monitor and the slot entries alone. -/
theorem takeInvalid_rest (s : State) :
    { s.takeInvalid with cl := s.cl, sn := { s.takeInvalid.sn with slots := s.sn.slots } } = s := by
  unfold State.takeInvalid
  split <;> rfl

theorem takeInvalid_slots (s : State) :
    s.takeInvalid.sn.slots = Assoc.mapValues (fun _ e => { e with latch := none }) s.sn.slots := by
  unfold State.takeInvalid
  split <;> rfl

/-- An invalid unit empties the latch of every slot; a slot never written has an empty one. -/
theorem slot_takeInvalid (s : State) (n : SlotNo) : s.takeInvalid.slot n = { s.slot n with latch := none } := by
  unfold State.slot
  rw [takeInvalid_slots, Assoc.find_mapValues]
  cases Assoc.find s.sn.slots n <;> rfl

/-- Settles O50, part by part: the unit that is not judged, the tests of R72 (`readFrame_isSome_iff`), and what
`takeInvalid` leaves of the link monitor, of the slots and of the rest. -/
theorem arrivalsAreJudgedAndInvalidOnesDiscarded : Obligations.ArrivalsAreJudgedAndInvalidOnesDiscarded := by
  refine ⟨fun bytes s => exec_frameArrival_not_judged bytes, readFrame_isSome_iff, fun bytes s hs hinvalid => ?_⟩
  exact ⟨s.takeInvalid, exec_frameArrival_invalid hs hinvalid, slot_takeInvalid s, takeInvalid_cl s,
    takeInvalid_rest s⟩

end Sys2Proof.Machine
end

section
/-! SUPPORT. D0 writes (R153, R175): the directive words' region when the regions stand apart, what a directive write
answers, and what DU makes of a good D0 word; and the statement that they settle. -/

namespace Sys2Proof.Machine

/-! ## Directive writes -/

/-- An address outside an extent has no offset in it. -/
theorem offsetIn_eq_none {base a : Addr} {extent : Nat}
    (h : a.toNat < base.toNat ∨ base.toNat + extent ≤ a.toNat) : offsetIn base extent a = none :=
  if_neg (by omega)

/-- A directive word is put in the directive words, the other regions lying elsewhere (R2). -/
theorem regionOf_directiveAt {b : Bases} {a : Addr} {k : Nat} (hb : b.apart) (h : b.directiveAt a k) :
    regionOf b a = .directive k := by
  obtain ⟨hat, hlt⟩ := h
  obtain ⟨-, -, -, -, hsample, hroute⟩ := hb
  have hs : offsetIn b.sample 4096 a = none := offsetIn_eq_none (by omega)
  have hr : offsetIn b.route 2048 a = none := offsetIn_eq_none (by omega)
  have hd : offsetIn b.directive 24 a = some k := offsetIn_eq_some.mpr ⟨hat, by omega⟩
  unfold regionOf
  rw [hs, hr, hd]
  exact if_pos hlt

/-- A directive write in RUNNING with no own step due reaches the store as written, and DU takes it; nothing else
changes (R16). -/
theorem exec_directiveWrite_steady {i : Instr} {a : Addr} {w : BusWord} {n : Nat} {b : Bases} {s : State}
    (hi : busAccess i = some ⟨.controller, a, .write w⟩) (hs : s.steady) (hb : s.bi.bases = some b) (hapart : b.apart)
    (ha : b.directiveAt a n) :
    exec i s = .next { s with ports := s.ports.passed ⟨.controller, a, .write w⟩, du := s.du.take n w } := by
  rw [exec_busAccess_steady hi hs hb]
  unfold State.classified
  dsimp only
  rw [regionOf_directiveAt hapart ha]
  rfl

/-! ## The word D0 (R175) -/

theorem d0Code_d0Word (code : BitVec 4) (low : BitVec 12) : d0Code (d0Word code low) = code :=
  BitVec.extractLsb'_append_eq_left

theorem d0Step_d0Word (code : BitVec 4) (low : BitVec 12) : d0Step (d0Word code low) = low.getLsbD 11 := by
  unfold d0Step d0Word
  rw [BitVec.getLsbD_append, if_pos (by decide)]

theorem d0Tag_d0Word (code : BitVec 4) (low : BitVec 12) : d0Tag (d0Word code low) = low.extractLsb' 0 6 :=
  BitVec.extractLsb'_append_eq_of_add_le (by decide)

namespace DirectiveUnit

/-- A good D0 write is a command to DU. -/
theorem take_d0_good {w : BusWord} (h : parityGood w = true) (d : DirectiveUnit) : d.take 0 w = d.command w.data := by
  unfold take
  rw [if_pos h]
  rfl

/-- With no directive in progress a good D0 word starts one and ends step mode (R153). -/
theorem command_of_idle {d : DirectiveUnit} (h : d.inProgress = none) (w : Word) : d.command w =
    { d with inProgress := some ⟨d0Code w, d0Step w, d0Tag w, d.latches, none⟩, stepMode := none } :=
  if_neg (by simp [busy, h])

/-- With a directive in progress a good D0 word sets OVERRUN alone (R153). -/
theorem command_of_busy {d : DirectiveUnit} (h : d.inProgress ≠ none) (w : Word) :
    d.command w = { d with overrun := true } :=
  if_pos (Option.isSome_iff_ne_none.mpr h)

end DirectiveUnit

/-- Settles O27: the write is DU's command (`exec_directiveWrite_steady`, `take_d0_good`), and goes by whether a
directive is in progress; the fields of D0 are those of the word. -/
theorem d0WriteStartsADirectiveOrSetsOverrun : Obligations.D0WriteStartsADirectiveOrSetsOverrun := by
  intro i a code low u l b s hi hs hb hapart ha hparity ports
  rw [exec_directiveWrite_steady hi hs hb hapart ha,
    DirectiveUnit.take_d0_good (w := ⟨d0Word code low, u, l⟩) hparity]
  refine ⟨fun hidle => ?_, fun hbusy => ?_⟩
  · rw [DirectiveUnit.command_of_idle hidle, d0Code_d0Word, d0Step_d0Word, d0Tag_d0Word]
    rfl
  · rw [DirectiveUnit.command_of_busy hbusy]
    rfl

end Sys2Proof.Machine
end

section
/-! SUPPORT. ABANDON (R162): what the abandon claim leaves of the records and the slots (R43, R108), and the run that
takes it; and the statement that they settle. -/

namespace Sys2Proof.Machine

/-! ## A record and a slot after ABANDON -/

/-- A record of the retired group stays as it is (R43). -/
theorem ChannelRecord.abandoned_of_retiredGroup {r : ChannelRecord} (h : r.phase.inRetiredGroup = true) :
    r.abandoned = r := if_pos h

/-- Any other record goes to COPPER (R43). -/
theorem ChannelRecord.abandoned_of_not_retiredGroup {r : ChannelRecord} (h : r.phase.inRetiredGroup = false) :
    r.abandoned = { r.enter .copper with
      label := none, slot := none, context := none, lag := 0, collapsed := false } :=
  if_neg (by simp [h])

namespace State

/-- The abandon claim takes every channel's record to what R43 makes of it; one never written stays in COPPER. -/
theorem channel_claimAbandon (s : State) (c : Channel) :
    s.claimAbandon.1.channel c = (s.channel c).abandoned := by
  have hfind : Assoc.find s.claimAbandon.1.cm c = (Assoc.find s.cm c).map ChannelRecord.abandoned :=
    Assoc.find_mapValues _ _ _
  unfold State.channel
  rw [hfind]
  cases Assoc.find s.cm c <;> rfl

/-- The abandon claim frees the slots that R108 names, and keeps the others; one never written is FREE. -/
theorem slot_claimAbandon (s : State) (n : SlotNo) : s.claimAbandon.1.slot n =
    if s.abandonsSlot (s.slot n) = true then (s.slot n).release else s.slot n := by
  have hfind : Assoc.find s.claimAbandon.1.sn.slots n = (Assoc.find s.sn.slots n).map
      fun e => if s.abandonsSlot e = true then e.release else e := Assoc.find_mapValues _ _ _
  unfold State.slot
  rw [hfind]
  cases Assoc.find s.sn.slots n <;> rfl

/-! ## The run -/

/-- With no own step due, the run of a directive that a D0 write started meets the state as it stands. -/
theorem exec_directiveRun_command {d : Directive} {s : State} (hdue : s.due = []) (hd : s.du.inProgress = some d)
    (hstep : d.stepOf = none) : exec .directiveRun s = .next (s.runCommand d) := by
  show Host.Outcome.next s.settled.runDirective = _
  rw [settled_of_due_nil hdue]
  unfold runDirective
  rw [hd]
  dsimp only
  rw [hstep]

/-- Code 9 is ABANDON, which has no checks: it reads no latch (R162). -/
theorem runCommand_abandon {d : Directive} (h : d.code = 9#4) (s : State) : s.runCommand d = s.runAbandon d := by
  simp [runCommand, Directive.inDoubt, h]

end State

/-- Settles O37: the run takes the abandon claim (`runCommand_abandon`), whose records and slots are those of
`channel_claimAbandon` and `slot_claimAbandon`; the statement's two tests are the model's. -/
theorem abandonClearsAllButTheRetiredGroup : Obligations.AbandonClearsAllButTheRetiredGroup := by
  intro d s hdue hd hstep hcode kept goes
  have hkept : kept = Phase.inRetiredGroup := by
    funext p
    cases p <;> rfl
  have hgoes : goes = s.abandonsSlot := by
    funext e
    unfold goes State.abandonsSlot SlotEntry.inUse
    rw [hkept]
    cases e.channel with
    | none => cases e.state <;> rfl
    | some c => cases e.state <;> rfl
  clear_value kept goes
  subst hkept hgoes
  refine ⟨s.runAbandon d, ?_, fun c hgroup => ?_, fun c hother => ?_, fun k => rfl, rfl, rfl, rfl, rfl, rfl, rfl,
    fun n => ?_, rfl, rfl⟩
  · rw [State.exec_directiveRun_command hdue hd hstep, State.runCommand_abandon hcode]
  · exact (State.channel_claimAbandon s c).trans (ChannelRecord.abandoned_of_retiredGroup hgroup)
  · exact (State.channel_claimAbandon s c).trans (ChannelRecord.abandoned_of_not_retiredGroup hother)
  · exact State.slot_claimAbandon s n

end Sys2Proof.Machine
end

section
/-! SUPPORT. The step and the queue, the reset and the start of the load (R167, R168, R172), and a mark that comes too soon
(R19); and the statements that they settle. -/

namespace Sys2Proof.Machine

/-! ## The step and the queue -/

/-- Settles O1, by the queue's form. -/
theorem stepRunsFrontCommand : Obligations.StepRunsFrontCommand := by
  intro c rest s hqueue
  unfold step
  rw [hqueue]

/-- Settles O2, by the queue's form. -/
theorem emptyQueueIdles : Obligations.EmptyQueueIdles := by
  intro s hqueue
  unfold step
  rw [hqueue]

/-! ## The reset values -/

theorem channel_reset (c : Channel) : State.reset.channel c = .reset := rfl

theorem slot_reset (n : SlotNo) : State.reset.slot n = .reset := rfl

theorem context_reset (k : CtxNo) : State.reset.context k = none := rfl

/-- Settles O5: each field as `State.reset` has it; no table lists anything. -/
theorem resetHoldsResetValues : Obligations.ResetHoldsResetValues := by
  refine ⟨rfl, rfl, rfl, rfl, fun _ => rfl, channel_reset, context_reset, rfl, ?_⟩
  refine ⟨rfl, rfl, rfl, rfl, rfl, rfl, rfl, rfl, rfl, rfl, slot_reset, ?_⟩
  refine ⟨rfl, rfl, rfl, rfl, rfl, ?_⟩
  refine ⟨rfl, rfl, rfl, rfl, rfl, rfl, rfl, rfl, rfl, rfl, rfl, rfl, ?_⟩
  exact ⟨rfl, rfl, rfl, rfl, rfl, rfl⟩

/-! ## The invariants at the reset -/

theorem fieldsByPhase_reset : State.reset.fieldsByPhase := by
  intro c
  simp [channel_reset, ChannelRecord.reset, ChannelRecord.holdsContext]

theorem slotsNamed_reset : State.reset.slotsNamed := by
  refine ⟨fun c n => ?_, fun n => ?_, fun n => ?_, fun n => ?_⟩
  · simp [channel_reset, slot_reset, ChannelRecord.reset, SlotEntry.reset]
  · simp [slot_reset, SlotEntry.reset, SlotEntry.inUse]
  · exact iff_of_false nofun fun ⟨_, ho, _⟩ => nomatch ho
  · exact iff_of_false nofun fun ⟨_, ho, _⟩ => nomatch ho

theorem consistent_reset : State.reset.consistent := by
  refine ⟨fieldsByPhase_reset, ⟨List.Pairwise.nil, fun c k => ?_⟩, ⟨List.nodup_nil, fun c => ?_⟩, slotsNamed_reset,
    ⟨List.nodup_nil, fun r hr => ?_, fun o ho => ?_⟩, ⟨List.Pairwise.nil, fun c x hx => ?_⟩,
    ⟨fun c n hdue => ?_, fun hdue => ?_⟩, ⟨fun _ => ⟨rfl, rfl, rfl⟩, fun _ => rfl, fun _ n => rfl⟩⟩
  · simp [channel_reset, context_reset, ChannelRecord.reset]
  · exact iff_of_false nofun fun h => nomatch h
  · cases hr
  · cases ho
  · cases hx
  · simp [State.reset] at hdue
  · cases hdue

theorem bounded_reset : State.reset.bounded := by
  refine ⟨fun c => ?_, fun c d l hc => absurd (channel_reset c ▸ rfl) hc, ⟨Nat.zero_le _, fun _ c => .inl rfl⟩,
    ⟨Nat.zero_le _, Nat.zero_le _⟩⟩
  simp [channel_reset, ChannelRecord.reset]

theorem recorded_reset : State.reset.recorded := by
  refine ⟨fun c n hslot => ?_, ⟨List.nodup_nil, fun r hr => ?_⟩, ⟨fun n bytes hpage => ?_, fun _ => rfl⟩⟩
  · cases hslot
  · cases hr
  · cases hpage

/-- Settles O60. -/
theorem invariantsHoldAtReset : Obligations.InvariantsHoldAtReset :=
  ⟨rfl, Nat.zero_le _, Nat.zero_le _, fun _ hp => (nomatch hp), List.Pairwise.nil, List.Pairwise.nil, consistent_reset,
    bounded_reset, recorded_reset, rfl⟩

/-! ## The part reset -/

/-- Settles O6: PART_RESET answers the reset state with the store and the queue of commands its own; the line is that of
the transfer that is cut off, which holds no stop condition (`stop_not_mem_cut_transfer`). -/
theorem partResetTakesResetValues : Obligations.PartResetTakesResetValues := by
  intro reset s
  exact ⟨_, rfl, rfl, rfl, rfl, rfl, rfl, rfl, rfl, rfl, rfl, rfl, rfl, rfl, rfl,
    stop_not_mem_cut_transfer s.settled reset.place⟩

/-! ## A transfer of the load that fails -/

/-- MISSING_ACK ends a transfer at its fault as the statements say, where each fault that meets the transfer leaves
`failed`. -/
theorem endsAtTheFault_of_missingAck {s : State} {transfer : List LineEvent}
    {failed : MissingAck → List LineEvent → State} (hdue : s.due = []) (htransfer : s.transfer = transfer)
    (hfailed : ∀ fault sent, cutOff fault transfer = some sent → s.missingAck fault = failed fault sent) :
    s.endsAtTheFault transfer failed := by
  intro place sent ahead answer
  have hmeets {fault : MissingAck} {line : List LineEvent} (h : cutOff fault transfer = some line) :
      exec (.missingAck fault) s = .next (failed fault line) := by
    rw [exec_missingAck hdue, hfailed fault line h]
  have hmisses {fault : MissingAck} (h : cutOff fault transfer = none) : exec (.missingAck fault) s = .next s := by
    rw [exec_missingAck hdue, missingAck_of_no_point (htransfer ▸ h)]
  exact ⟨fun b hb => hmeets (cutOff_byte hb), fun hb => hmisses (cutOff_no_byte hb),
    fun e he hstart => hmeets (cutOff_clock he hstart), fun h => hmisses (cutOff_no_clock h),
    fun h => hmeets (cutOff_data h), fun h h' => hmisses (cutOff_no_data h h')⟩

/-- The transfer of the load, while the part loads. -/
theorem transfer_of_loading {s : State} (hpart : s.part = .loading) (hreset : s.resetHeld = false) :
    s.transfer = s.sc.loader.transfer := by
  unfold State.transfer
  rw [hreset, hpart]
  rfl

theorem loading_of_loading {s : State} (hpart : s.part = .loading) (hreset : s.resetHeld = false) :
    s.loading = some s.sc.loader :=
  if_pos ⟨hpart, hreset⟩

/-- What the line shows of a load that fails at a fault (R172). -/
theorem ackFaultLine_eq (cause : AckFault) : ackFaultLine cause =
    (if cause = .byteNotAcknowledged then [.stop] else []) ++ [.releaseData, .releaseClock] := by
  cases cause <;> rfl

/-- A missing acknowledge in the opening poll is not judged (log 18). -/
theorem missingAck_opening_poll {s : State} (hpart : s.part = .loading) (hloader : s.sc.loader = .poll)
    (fault : MissingAck) : s.missingAck fault = s := by
  cases hcut : cutOff fault s.transfer with
  | none => exact missingAck_of_no_point hcut
  | some sent =>
    rw [missingAck_loading hcut hpart]
    unfold State.loadMissingAck
    rw [hloader]

/-- Settles O8: the three rows by the state they meet, and a fault in the header read or in a record transfer by
`endsAtTheFault_of_missingAck`. -/
theorem resetEndAndOpeningPoll : Obligations.ResetEndAndOpeningPoll := by
  refine ⟨fun s hheld => ?_, fun acked s hpart hreset hloader => ?_, fun s hpart hreset hloader => ?_,
    fun s hpart hreset hdue => ⟨fun hloader => ?_, fun j hloader => ?_, fun hloader => ?_⟩⟩
  · show Host.Outcome.next (if s.resetHeld = true then _ else s) = _
    rw [if_pos hheld]
  · have hstage : s.loading = some .poll := hloader ▸ loading_of_loading hpart hreset
    show Host.Outcome.next (if s.loading = some .poll then s.pollLoader acked else s) = _
    rw [if_pos hstage]
    cases acked
    · show Host.Outcome.next (s.drive loadPollLine) = _
      rw [if_neg Bool.false_ne_true, ← hloader]
      rfl
    · rfl
  · have hstage : s.loading = some .poll := hloader ▸ loading_of_loading hpart hreset
    show Host.Outcome.next (if s.loading = some .poll then s.bypass releaseLine else s) = _
    rw [if_pos hstage]
    rfl
  · have htransfer : s.transfer = loadEvents 0 := by
      rw [transfer_of_loading hpart hreset, hloader]
      exact loadTransfer_eq 0
    refine ⟨htransfer, endsAtTheFault_of_missingAck hdue htransfer fun fault sent hcut => ?_⟩
    rw [missingAck_loading (htransfer ▸ hcut) hpart]
    unfold State.loadMissingAck
    rw [hloader]
    dsimp only
    rw [ackFaultLine_eq, ← List.append_assoc]
    rfl
  · have htransfer : s.transfer = loadEvents (64 + 64 * j) := by
      rw [transfer_of_loading hpart hreset, hloader]
      exact loadTransfer_eq _
    refine ⟨htransfer, endsAtTheFault_of_missingAck hdue htransfer fun fault sent hcut => ?_⟩
    rw [missingAck_loading (htransfer ▸ hcut) hpart]
    unfold State.loadMissingAck
    rw [hloader]
    dsimp only
    rw [ackFaultLine_eq, ← List.append_assoc]
    rfl
  · refine ⟨?_, fun fault => ?_⟩
    · rw [transfer_of_loading hpart hreset, hloader]
      rfl
    · rw [exec_missingAck hdue, missingAck_opening_poll hpart hloader]

/-! ## A runt mark -/

/-- Settles O12: before the limit a mark only sets the holdover timer. -/
theorem runtMarkIsIgnored : Obligations.RuntMarkIsIgnored := by
  intro time o s hreset hseen hearly
  have hrunt : (s.timerAt time).ft.runt = true := by
    simp only [FrameTimer.runt, State.timerAt_ft, hseen, Bool.true_and, decide_eq_true_eq]
    exact hearly
  show Host.Outcome.next (if s.resetHeld = true then s else if (s.timerAt time).ft.runt = true then _ else _) = _
  rw [if_neg (Bool.eq_false_iff.mp hreset), if_pos hrunt]
  rfl

end Sys2Proof.Machine
end

section
/-! SUPPORT. The retirement store's bytes as numbers, the store through a part reset (R150), and the load: the header
(R169), one record (R170) and a record transfer (R170, R171); and the statements that they settle. -/

namespace Sys2Proof.Machine

/-- Settles O3: a step that is not due changes nothing, and none changes what `State.frame` keeps (`frame_effect`). -/
theorem ownStepsActOnlyWhenDueAndKeepFrame : Obligations.OwnStepsActOnlyWhenDueAndKeepFrame := by
  intro i d s hi
  rw [exec_ownStep hi]
  refine ⟨fun hnot => by rw [own_of_not_mem hnot], _, rfl, ?_⟩
  by_cases hd : d ∈ s.due
  · rw [own_of_mem hd, frame_effect, frame_due]
  · rw [own_of_not_mem hd]

/-! ## Bytes as numbers -/

/-- Sums of bytes modulo 256, from any start. -/
theorem toNat_foldl_add (bytes : List Byte) (start : Byte) :
    (bytes.foldl (· + ·) start).toNat = (start.toNat + (bytes.map BitVec.toNat).sum) % 256 := by
  induction bytes generalizing start with
  | nil => simp [Nat.mod_eq_of_lt start.isLt]
  | cons b t ih =>
    rw [List.foldl_cons, ih, BitVec.toNat_add, List.map_cons, List.sum_cons]
    omega

theorem toNat_byteSum (bytes : List Byte) : (byteSum bytes).toNat = (bytes.map BitVec.toNat).sum % 256 := by
  unfold byteSum
  rw [toNat_foldl_add]
  simp

theorem byteSum_append_singleton (body : List Byte) (b : Byte) : byteSum (body ++ [b]) = byteSum body + b := by
  simp [byteSum]

theorem toNat_wordOf (hi lo : Byte) : (wordOf hi lo).toNat = hi.toNat * 256 + lo.toNat := by
  unfold wordOf
  rw [BitVec.toNat_append, Nat.shiftLeft_eq, ← Nat.shiftLeft_eq, ← Nat.shiftLeft_add_eq_or_of_lt lo.isLt,
    Nat.shiftLeft_eq]

theorem byte_eq_iff (b : Byte) {n : Nat} (h : n < 256) : b = BitVec.ofNat 8 n ↔ b.toNat = n := by
  rw [← BitVec.toNat_inj, BitVec.toNat_ofNat, Nat.mod_eq_of_lt h]

/-- The bytes read from an address on are the bytes of those addresses. -/
theorem readBytes_eq_map (m : Memory) (a n : Nat) : m.readBytes a n = (List.range n).map fun i => m.read (a + i) := by
  induction n generalizing a with
  | zero => rfl
  | succ n ih =>
    rw [Memory.readBytes, ih, List.range_succ_eq_map, List.map_cons, List.map_map]
    congr 1
    refine List.map_congr_left fun i _ => ?_
    show m.read (a + 1 + i) = m.read (a + (i + 1))
    congr 1
    omega

theorem getD_readBytes (m : Memory) (a : Nat) {n i : Nat} (h : i < n) : (m.readBytes a n).getD i 0 = m.read (a + i) := by
  rw [readBytes_eq_map]
  simp [List.getD_eq_getElem?_getD, h]

/-! ## The retirement store through a part reset (R150) -/

theorem commit_of_page {x : RetirementStore} {n : SlotNo} {bytes : List Byte} (h : x.programming = some (n, bytes)) :
    x.commit = ⟨x.cells.writeBytes (recordAddress n) bytes, none⟩ := by
  unfold RetirementStore.commit
  rw [h]

theorem throughReset_of_idle {x : RetirementStore} (h : x.programming = none) (cause : ResetCause) (used : Nat) :
    x.throughReset cause used = x := by
  unfold RetirementStore.throughReset
  cases cause <;> rw [h]

/-- The write in flight is in PROGRAM on the line. -/
theorem flightIn_program_isSome (s : State) : (s.flightIn .program).isSome = true ↔
    s.part = .running ∧ s.resetHeld = false ∧ ∃ r p, s.sc.flight = some ⟨r, p, .program⟩ := by
  unfold State.flightIn
  cases s.sc.flight with
  | none => simp
  | some f =>
    obtain ⟨r, p, stage⟩ := f
    simp

/-- The retirement store after a part reset, from the state in which the due steps have been taken (R150). -/
def State.storeAfterReset (s : State) (reset : PartReset) : RetirementStore :=
  (s.storeAt reset.place).throughReset reset.cause s.freeUsed

theorem exec_partReset_store (reset : PartReset) (s : State) :
    ∃ t, exec (.partReset reset) s = .next t ∧ t.store = s.settled.storeAfterReset reset := ⟨_, rfl, rfl⟩

/-- With no page being programmed a part reset leaves the store as it is. -/
theorem storeAfterReset_of_idle {s : State} (h : s.store.programming = none) (reset : PartReset) :
    s.storeAfterReset reset = s.store := by
  unfold State.storeAfterReset
  rw [storeAt_of_idle reset.place h, throughReset_of_idle h]

/-- A page being programmed is finished by a reset that keeps the supply, or by the address that the store has
acknowledged since; a power-on reset leaves the damaged record otherwise (R150). -/
theorem storeAfterReset_of_page {s : State} {n : SlotNo} {bytes : List Byte}
    (h : s.store.programming = some (n, bytes)) (reset : PartReset) :
    let answered := (s.flightIn .program).isSome = true ∧ 2 ≤ reset.place
    (reset.cause = .rst ∨ answered) ∧
      s.storeAfterReset reset = ⟨s.store.cells.writeBytes (recordAddress n) bytes, none⟩ ∨
    (reset.cause = .powerOn ∧ ¬ answered) ∧
      s.storeAfterReset reset = ⟨s.store.cells.writeBytes (recordAddress n) (damagedRecord n s.freeUsed), none⟩ := by
  intro answered
  unfold State.storeAfterReset
  by_cases ha : answered
  · obtain ⟨f, hf⟩ := Option.isSome_iff_exists.mp ha.1
    rw [storeAt_of_page hf ha.2, commit_of_page h, throughReset_of_idle rfl]
    exact .inl ⟨.inr ha, rfl⟩
  · have hstore : s.storeAt reset.place = s.store := by
      by_cases hplace : 2 ≤ reset.place
      · exact storeAt_of_no_page _ (Option.not_isSome_iff_eq_none.mp fun hf => ha ⟨hf, hplace⟩)
      · exact storeAt_of_lt (Nat.lt_of_not_le hplace)
    rw [hstore]
    unfold RetirementStore.throughReset
    cases hcause : reset.cause with
    | rst => exact .inl ⟨.inl rfl, by rw [h, ← commit_of_page h]⟩
    | powerOn => exact .inr ⟨⟨rfl, ha⟩, by rw [h]⟩

theorem length_damagedRecord (n : SlotNo) (used : Nat) : (damagedRecord n used).length = 8 := by
  simp [damagedRecord]

/-- The check of a damaged record fails (log 8): what is added to its check byte is not 0. -/
theorem damagedRecord_check_fails (n : SlotNo) (used : Nat) :
    byteSum (damagedRecord n used) + BitVec.ofNat 8 n.val ≠ 0#8 := by
  unfold damagedRecord
  rw [byteSum_append_singleton]
  generalize (List.range 7).map (fun i => Config.damagedByte (used + i)) = body
  have hoff : ∀ m : Nat, (1 + BitVec.ofNat 8 (m % 255) : Byte) ≠ 0#8 := by
    intro m hzero
    have h := congrArg BitVec.toNat hzero
    simp only [BitVec.toNat_add, BitVec.toNat_ofNat, show ((1 : Byte).toNat = 1) from rfl] at h
    omega
  have hcancel : ∀ x y off : Byte, x + (0 - (x + y) + off) + y = off := by
    intro x y off
    bv_omega
  unfold recordCheckByte slotByte
  rw [hcancel]
  exact hoff _

/-- Settles O7: the store of the reset is the settled state's (`frame_store`), with its page as `storeAfterReset_of_page`
says. -/
theorem partResetLeavesTheRecordByThePointOfTheCut : Obligations.PartResetLeavesTheRecordByThePointOfTheCut := by
  intro reset s
  obtain ⟨t, ht, hafter⟩ := exec_partReset_store reset s
  refine ⟨t, ht, ?_⟩
  intro u answered
  have hstore : u.store = s.store := frame_store (frame_settled s)
  have hanswered : answered ↔ ((u.flightIn .program).isSome = true ∧ 2 ≤ reset.place) := by
    rw [flightIn_program_isSome]
    simp only [answered, and_assoc]
  rw [hafter, ← hstore]
  cases hpage : u.store.programming with
  | none =>
    rw [storeAfterReset_of_idle hpage]
    exact ⟨hpage, fun _ => rfl, fun n bytes h => nomatch h⟩
  | some page =>
    obtain ⟨n, bytes⟩ := page
    rw [hanswered]
    obtain ⟨hc, h⟩ | ⟨⟨hcause, hna⟩, h⟩ := storeAfterReset_of_page hpage reset
    · rw [h]
      refine ⟨rfl, nofun, fun m bs hm hlength => ?_⟩
      cases hm
      refine ⟨fun _ => ?_, fun hcause hna => ?_, fun a ha => ?_⟩
      · have hread := Memory.readBytes_writeBytes u.store.cells (recordAddress n) bytes
        rw [hlength] at hread
        exact hread
      · exact absurd (hc.resolve_left (by rw [hcause]; nofun)) hna
      · exact Memory.read_writeBytes_outside _ _ _ _ (by unfold recordAddress; omega)
    · rw [h]
      refine ⟨rfl, nofun, fun m bs hm hlength => ?_⟩
      cases hm
      have hdamaged := length_damagedRecord n u.freeUsed
      refine ⟨fun hc => ?_, fun _ _ => ?_, fun a ha => ?_⟩
      · exact absurd (hc.resolve_left (by rw [hcause]; nofun)) hna
      · have hread := Memory.readBytes_writeBytes u.store.cells (recordAddress n) (damagedRecord n u.freeUsed)
        rw [hdamaged] at hread
        unfold recordAddress at hread ⊢
        rw [hread]
        exact damagedRecord_check_fails n _
      · exact Memory.read_writeBytes_outside _ _ _ _ (by unfold recordAddress; omega)

/-! ## The header (R169) -/

/-- The tests of R169 on the header bytes, as the model makes them. -/
def headerTests (f : Nat → Byte) : Prop :=
  f 0 = 0x5C#8 ∧ byteSum ((List.range 64).map f) = 0#8 ∧ (f 1 = 0#8 ∨ f 1 = 1#8) ∧
  basesGood (triple (f 2) (f 3) (f 4)) (triple (f 5) (f 6) (f 7)) (triple (f 8) (f 9) (f 10)) = true ∧
  paramsGood (headerParams ((List.range 64).map f)) = true ∧ (f 11).extractLsb' 4 4 = 0#4

/-- The header that header bytes spell. -/
def headerOf (f : Nat → Byte) : Header where
  role := if f 1 = 0#8 then .lead else .follow
  bases := ⟨BitVec.ofNat 18 (triple (f 2) (f 3) (f 4)), BitVec.ofNat 18 (triple (f 5) (f 6) (f 7)),
    BitVec.ofNat 18 (triple (f 8) (f 9) (f 10))⟩
  params := {
    proveRun := (f 13).toNat
    quietLimit := (f 14).toNat
    guardFrames := (f 15).toNat
    noticeLead := (f 16).toNat
    noticeWait := (wordOf (f 17) (f 18)).toNat
    joinWait := (wordOf (f 19) (f 20)).toNat
    orphanFrames := (wordOf (f 21) (f 22)).toNat
    holdLimit := (f 23).toNat
    idle := sampleOf (wordOf (f 11) (f 12)) }

theorem getD_map_range (f : Nat → Byte) {n i : Nat} (h : i < n) : ((List.range n).map f).getD i 0 = f i := by
  simp [List.getD_eq_getElem?_getD, h]

theorem headerParams_map (f : Nat → Byte) : headerParams ((List.range 64).map f) = (headerOf f).params := by
  unfold headerParams headerOf
  simp (disch := decide) only [getD_map_range]

open Classical in
/-- The 64 header bytes spell a good header exactly when they pass the tests. -/
theorem readHeader_map (f : Nat → Byte) :
    readHeader ((List.range 64).map f) = if headerTests f then some (headerOf f) else none := by
  unfold readHeader headerTests
  simp (disch := decide) only [getD_map_range, headerParams_map]
  split <;> rfl

theorem extractLsb'_high_eq_zero_iff (b : Byte) : b.extractLsb' 4 4 = 0#4 ↔ b.toNat < 16 := by
  rw [← BitVec.toNat_inj, BitVec.extractLsb'_toNat]
  have := b.isLt
  simp only [BitVec.toNat_ofNat, Nat.shiftRight_eq_div_pow]
  omega

theorem paramsGood_iff (p : Params) : paramsGood p = true ↔
    (8 ≤ p.proveRun ∧ p.proveRun ≤ 255) ∧ p.quietLimit ≤ 31 ∧ p.guardFrames ≤ 63 ∧
    (8 ≤ p.noticeLead ∧ p.noticeLead ≤ 200) ∧ (100 ≤ p.noticeWait ∧ p.noticeWait ≤ 65535) ∧
    (100 ≤ p.joinWait ∧ p.joinWait ≤ 65535) ∧ (100 ≤ p.orphanFrames ∧ p.orphanFrames ≤ 65535) ∧
    1 ≤ p.holdLimit ∧ p.holdLimit ≤ 63 := by
  simp only [paramsGood, Bool.and_eq_true, decide_eq_true_eq, and_assoc]

theorem basesGood_iff (s t a : Nat) : basesGood s t a = true ↔
    (s + 4095 < 262144 ∧ t + 2047 < 262144 ∧ a + 23 < 262144) ∧
    (s + 4096 ≤ t ∨ t + 2048 ≤ s) ∧ (s + 4096 ≤ a ∨ a + 24 ≤ s) ∧ (t + 2048 ≤ a ∨ a + 24 ≤ t) := by
  simp only [basesGood, disjoint, Bool.and_eq_true, Bool.or_eq_true, decide_eq_true_eq, and_assoc]

/-- The model's tests are those of R169 on the bytes as numbers. -/
theorem headerTests_iff (f : Nat → Byte) : headerTests f ↔ headerPasses fun i => (f i).toNat := by
  have hsum : byteSum ((List.range 64).map f) = 0#8 ↔
      ((List.range 64).map fun i => (f i).toNat).sum % 256 = 0 := by
    rw [← BitVec.toNat_inj, toNat_byteSum, List.map_map]
    rfl
  have hidle : (f 11).extractLsb' 4 4 = 0#4 ↔ (f 11).toNat * 256 + (f 12).toNat < 4096 := by
    have := (f 12).isLt
    rw [extractLsb'_high_eq_zero_iff]
    omega
  unfold headerTests headerPasses
  rw [hsum, hidle, byte_eq_iff (f 0) (n := 0x5C) (by decide), byte_eq_iff (f 1) (n := 0) (by decide),
    byte_eq_iff (f 1) (n := 1) (by decide), headerParams_map, basesGood_iff, paramsGood_iff]
  simp only [headerOf, toNat_wordOf, triple, and_assoc]

/-- The header held has the bases that its bytes spell: each lies below word 262144. -/
theorem headerOf_bases {f : Nat → Byte} (h : headerTests f) :
    (headerOf f).bases.sample.toNat = triple (f 2) (f 3) (f 4) ∧
    (headerOf f).bases.route.toNat = triple (f 5) (f 6) (f 7) ∧
    (headerOf f).bases.directive.toNat = triple (f 8) (f 9) (f 10) := by
  obtain ⟨-, -, -, hbases, -, -⟩ := h
  obtain ⟨⟨hs, ht, ha⟩, -⟩ := (basesGood_iff _ _ _).mp hbases
  simp only [headerOf, BitVec.toNat_ofNat]
  omega

theorem headerOf_idle {f : Nat → Byte} (h : headerTests f) :
    (headerOf f).params.idle.toNat = (f 11).toNat * 256 + (f 12).toNat := by
  obtain ⟨-, -, -, -, -, hhigh⟩ := h
  have hlow := (extractLsb'_high_eq_zero_iff _).mp hhigh
  have := (f 12).isLt
  simp only [headerOf, sampleOf, BitVec.extractLsb'_toNat, toNat_wordOf, Nat.shiftRight_zero]
  omega

/-- HEADER_READ at the header stage, by the bytes that the store holds. -/
theorem exec_headerRead {s : State} (hpart : s.part = .loading) (hreset : s.resetHeld = false)
    (hloader : s.sc.loader = .header) : exec .headerRead s = .next s.takeHeader := by
  have hstage : s.loading = some .header := hloader ▸ loading_of_loading hpart hreset
  show Host.Outcome.next (if s.loading = some .header then s.takeHeader else s) = _
  rw [if_pos hstage]

theorem takeHeader_good {s : State} (h : headerTests s.store.cells.read) : s.takeHeader = { s with
    sc := { s.sc with header := some (headerOf s.store.cells.read), loader := .records 0 }
    ports := { s.ports with line := loadEvents 0 } } := by
  unfold State.takeHeader
  have hbytes : s.store.cells.readBytes 0 64 = (List.range 64).map s.store.cells.read := by
    rw [readBytes_eq_map]; simp only [Nat.zero_add]
  rw [hbytes, readHeader_map, if_pos h, loadTransfer_eq]
  rfl

theorem takeHeader_bad {s : State} (h : ¬ headerTests s.store.cells.read) : s.takeHeader = { s with
    part := .bypass
    sc := { s.sc with loader := .done, header := none }
    ports := { s.ports with line := loadEvents 0 ++ [.releaseData, .releaseClock] } } := by
  unfold State.takeHeader
  have hbytes : s.store.cells.readBytes 0 64 = (List.range 64).map s.store.cells.read := by
    rw [readBytes_eq_map]; simp only [Nat.zero_add]
  rw [hbytes, readHeader_map, if_neg h, loadTransfer_eq]
  rfl

/-- Settles O9, by whether the header passes the tests (`headerTests_iff`). -/
theorem headerReadJudgesTheHeader : Obligations.HeaderReadJudgesTheHeader := by
  intro s hpart hreset hloader h
  rw [exec_headerRead hpart hreset hloader]
  refine ⟨_, rfl, ?_⟩
  have hiff : headerTests s.store.cells.read ↔ headerPasses h := headerTests_iff _
  by_cases htests : headerTests s.store.cells.read
  · have hpass := hiff.mp htests
    rw [takeHeader_good htests]
    obtain ⟨hsample, hroute, hdirective⟩ := headerOf_bases htests
    have hrole : (headerOf s.store.cells.read).role = if h 1 = 0 then .lead else .follow := by
      simp only [headerOf, h, byte_eq_iff (s.store.cells.read 1) (n := 0) (by decide)]
    exact ⟨rfl, fun _ => rfl, fun hfails => absurd hpass hfails,
      fun _ => ⟨hpart, rfl, _, rfl, hrole, hsample, hroute, hdirective, headerOf_idle htests, rfl, rfl, rfl, rfl,
        toNat_wordOf _ _, toNat_wordOf _ _, toNat_wordOf _ _, rfl⟩,
      fun hfails => absurd hpass hfails⟩
  · have hfails : ¬ headerPasses h := fun hpass => htests (hiff.mpr hpass)
    rw [takeHeader_bad htests]
    exact ⟨rfl, fun hpass => absurd hpass hfails, fun _ => rfl, fun hpass => absurd hpass hfails,
      fun _ => ⟨rfl, rfl, rfl⟩⟩

/-! ## One record (R170) -/

/-- A channel outside COPPER holds a label exactly when a listed record does (R22). -/
theorem channelOfLabel_isSome (s : State) (label : Word) : (s.channelOfLabel label).isSome = true ↔
    ∃ p ∈ s.cm, p.2.phase ≠ .copper ∧ p.2.label = some label := by
  unfold State.channelOfLabel
  simp [List.find?_isSome]

theorem retired_bytes (m : Memory) (a : Nat) :
    m.readBytes a 8 = [m.read a, m.read (a + 1), m.read (a + 2), m.read (a + 3), m.read (a + 4), m.read (a + 5),
      m.read (a + 6), m.read (a + 7)] := rfl

theorem recordCheckGood_iff (n : SlotNo) (bytes : List Byte) :
    recordCheckGood n bytes = true ↔ ((bytes.map BitVec.toNat).sum + n.val % 256) % 256 = 0 := by
  unfold recordCheckGood slotByte
  rw [beq_iff_eq, ← BitVec.toNat_inj, BitVec.toNat_add, toNat_byteSum]
  simp only [BitVec.toNat_ofNat]
  omega

/-- A stored record is a valid RETIRED record by its bytes as numbers (R142). -/
def storedRetired (m : Memory) (n : SlotNo) : Prop :=
  let b (i : Nat) : Nat := (m.read (64 + 8 * n.val + i)).toNat
  b 0 = 0xA7 ∧ (((List.range 8).map b).sum + n.val % 256) % 256 = 0 ∧ b 1 * 256 + b 2 ≤ 2047

/-- What a stored record says: its channel, its label and its idle pattern. -/
def storedFields (m : Memory) (n : SlotNo) : RetiredFields :=
  let b (i : Nat) : Nat := (m.read (64 + 8 * n.val + i)).toNat
  ⟨Fin.ofNat 2048 (b 1 * 256 + b 2), BitVec.ofNat 16 (b 3 * 256 + b 4), BitVec.ofNat 12 (b 5 * 256 + b 6)⟩

theorem wordOf_eq_ofNat (hi lo : Byte) : wordOf hi lo = BitVec.ofNat 16 (hi.toNat * 256 + lo.toNat) := by
  have := hi.isLt
  have := lo.isLt
  rw [← BitVec.toNat_inj, toNat_wordOf, BitVec.toNat_ofNat]
  omega

theorem sampleOf_wordOf (hi lo : Byte) : sampleOf (wordOf hi lo) = BitVec.ofNat 12 (hi.toNat * 256 + lo.toNat) := by
  rw [← BitVec.toNat_inj]
  simp only [sampleOf, BitVec.extractLsb'_toNat, toNat_wordOf, Nat.shiftRight_zero, BitVec.toNat_ofNat]

open Classical in
/-- The judgement of a stored record (R142). -/
theorem readRetired_stored (m : Memory) (n : SlotNo) : readRetired n (m.readBytes (recordAddress n) 8) =
    if storedRetired m n then some (storedFields m n) else none := by
  rw [retired_bytes]
  unfold readRetired
  dsimp only
  have htests : (m.read (recordAddress n) = retiredByte ∧
      recordCheckGood n [m.read (recordAddress n), m.read (recordAddress n + 1), m.read (recordAddress n + 2),
        m.read (recordAddress n + 3), m.read (recordAddress n + 4), m.read (recordAddress n + 5),
        m.read (recordAddress n + 6), m.read (recordAddress n + 7)] = true ∧
      (wordOf (m.read (recordAddress n + 1)) (m.read (recordAddress n + 2))).toNat ≤ 2047) ↔ storedRetired m n := by
    rw [recordCheckGood_iff, toNat_wordOf]
    unfold retiredByte
    rw [byte_eq_iff _ (n := 0xA7) (by decide)]
    rfl
  by_cases h : storedRetired m n
  · rw [if_pos (htests.mpr h), if_pos h, wordOf_eq_ofNat (m.read (recordAddress n + 3)), sampleOf_wordOf, toNat_wordOf]
    rfl
  · rw [if_neg fun h' => h (htests.mp h'), if_neg h]

/-- A record taken as void leaves everything as it is. -/
theorem judgeRecord_void {s : State} {n : SlotNo} (h : (s.store.cells.read (64 + 8 * n.val)).toNat ≠ 0xA7) :
    s.judgeRecord n = s := by
  unfold State.judgeRecord
  refine if_neg fun hhead => h ?_
  rw [retired_bytes, List.head?_cons, Option.some_inj] at hhead
  exact congrArg BitVec.toNat hhead

open Classical in
/-- Any other record is restored if it is valid and its channel and label are free, and skipped if not. -/
theorem judgeRecord_retired {s : State} {n : SlotNo} (h : (s.store.cells.read (64 + 8 * n.val)).toNat = 0xA7) :
    let f := storedFields s.store.cells n
    s.judgeRecord n =
      if storedRetired s.store.cells n ∧ (s.channel f.channel).phase = .copper ∧
        (s.channelOfLabel f.label).isSome = false then
        (s.setChannel f.channel (restoredRecord n f)).setSlot n { SlotEntry.reset with
          state := .held, channel := some f.channel }
      else s.raise .recordSkipped (Fin.ofNat 2048 n.val) := by
  intro f
  have hhead : (s.store.cells.readBytes (recordAddress n) 8).head? = some retiredByte := by
    rw [retired_bytes, List.head?_cons, Option.some_inj]
    exact (byte_eq_iff _ (n := 0xA7) (by decide)).mpr h
  unfold State.judgeRecord
  dsimp only
  rw [if_pos hhead, readRetired_stored]
  by_cases hvalid : storedRetired s.store.cells n
  · rw [if_pos hvalid]
    dsimp only
    by_cases hfree : (s.channel f.channel).phase = .copper ∧ (s.channelOfLabel f.label).isSome = false
    · obtain ⟨hcopper, hlabel⟩ := hfree
      rw [if_neg, if_pos ⟨hvalid, hcopper, hlabel⟩]
      rintro (hp | hl)
      · exact hp hcopper
      · exact Bool.false_ne_true (hlabel.symm.trans hl)
    · rw [if_pos, if_neg fun hall => hfree hall.2]
      by_cases hcopper : (s.channel f.channel).phase = .copper
      · exact .inr (Bool.not_eq_false _ ▸ fun hl => hfree ⟨hcopper, hl⟩)
      · exact .inl hcopper
  · rw [if_neg hvalid, if_neg fun hall => hvalid hall.1]

/-- Settles O10, by the state byte (`judgeRecord_void`, `judgeRecord_retired`). -/
theorem recordJudgedByTheLoadersTable : Obligations.RecordJudgedByTheLoadersTable := by
  intro s n b checkHolds number label skipped
  have hskipped : s.raise .recordSkipped (Fin.ofNat 2048 n.val) = skipped := raise_eq _ _ _
  have hvalid : storedRetired s.store.cells n ↔ b 0 = 0xA7 ∧ checkHolds ∧ number ≤ 2047 := Iff.rfl
  refine ⟨judgeRecord_void, fun h0 hbad => ?_, fun h0 _ _ htaken => ?_, fun h0 hcheck hnumber hcopper hlabel => ?_⟩
  · rw [judgeRecord_retired h0, if_neg fun hall => hbad (hvalid.mp hall.1).2, hskipped]
  · rw [judgeRecord_retired h0, if_neg, hskipped]
    rintro ⟨-, hcopper, hfree⟩
    obtain hp | hl := htaken
    · exact hp hcopper
    · exact Bool.false_ne_true (hfree.symm.trans ((channelOfLabel_isSome s label).mpr hl))
  · have hfree : (s.channelOfLabel label).isSome = false := by
      refine Bool.eq_false_iff.mpr fun hl => ?_
      obtain ⟨p, hp, houtside, hheld⟩ := (channelOfLabel_isSome s label).mp hl
      exact hlabel p hp houtside hheld
    intro t
    have ht : t = (s.setChannel (Fin.ofNat 2048 number) (restoredRecord n (storedFields s.store.cells n))).setSlot n
        { SlotEntry.reset with state := .held, channel := some (Fin.ofNat 2048 number) } :=
      (judgeRecord_retired h0).trans (if_pos ⟨hvalid.mpr ⟨h0, hcheck, hnumber⟩, hcopper, hfree⟩)
    rw [ht]
    refine ⟨?_, fun d hd => ?_, State.slot_setSlot_same _ _ _, fun m hm => ?_, rfl⟩
    · exact State.channel_setChannel_same s _ _
    · exact State.channel_setChannel_other s _ hd
    · exact State.slot_setSlot_other _ _ fun h => hm (congrArg some h)

/-! ## A record transfer (R170, R171) -/

/-- A record judged changes the channel map, the slot entries and the events only. -/
theorem judgeRecord_rest (s : State) (n : SlotNo) :
    { s.judgeRecord n with
      cm := s.cm, sn := { (s.judgeRecord n).sn with slots := s.sn.slots }, du := s.du } = s := by
  unfold State.judgeRecord
  dsimp only
  split
  · split
    · rw [raise_eq]
    · split
      · rw [raise_eq]
      · rfl
  · rfl

/-- What the line shows does not enter the judgement. -/
theorem judgeRecord_drive (s : State) (line : List LineEvent) (n : SlotNo) :
    (s.drive line).judgeRecord n = (s.judgeRecord n).drive line := by
  unfold State.judgeRecord
  dsimp only
  have hstore : (s.drive line).store = s.store := rfl
  rw [hstore]
  split
  · split
    · rw [raise_eq, raise_eq]; rfl
    · have hchannel (c : Channel) : (s.drive line).channel c = s.channel c := rfl
      have hlabel (l : Word) : (s.drive line).channelOfLabel l = s.channelOfLabel l := rfl
      rw [hchannel, hlabel]
      split
      · rw [raise_eq, raise_eq]; rfl
      · rfl
  · rfl

theorem foldl_judgeRecord_drive (slots : List SlotNo) (s : State) (line : List LineEvent) :
    slots.foldl State.judgeRecord (s.drive line) = (slots.foldl State.judgeRecord s).drive line := by
  induction slots generalizing s with
  | nil => rfl
  | cons n t ih => rw [List.foldl_cons, List.foldl_cons, judgeRecord_drive, ih]

theorem foldl_judgeRecord_rest (slots : List SlotNo) (s : State) :
    { slots.foldl State.judgeRecord s with
      cm := s.cm
      sn := { (slots.foldl State.judgeRecord s).sn with slots := s.sn.slots }
      du := s.du } = s := by
  induction slots generalizing s with
  | nil => rfl
  | cons n t ih =>
    rw [List.foldl_cons]
    exact (congrArg (fun u : State => { u with cm := s.cm, sn := { u.sn with slots := s.sn.slots }, du := s.du })
      (ih (s.judgeRecord n))).trans (judgeRecord_rest s n)

/-- The slots of a transfer, from a first one on. -/
theorem judgeRecords_eq_foldl (s : State) (first count : Nat) : s.judgeRecords first count =
    ((List.range count).map fun i => (Fin.ofNat 1024 (first + i) : SlotNo)).foldl State.judgeRecord s := by
  induction count generalizing s first with
  | zero => rfl
  | succ count ih =>
    rw [State.judgeRecords, ih, List.range_succ_eq_map, List.map_cons, List.foldl_cons, List.map_map]
    congr 2
    funext i
    show (Fin.ofNat 1024 (first + 1 + i) : SlotNo) = Fin.ofNat 1024 (first + (i + 1))
    congr 1
    omega

theorem exec_recordTransfer {s : State} {j : Nat} (hpart : s.part = .loading) (hreset : s.resetHeld = false)
    (hloader : s.sc.loader = .records j) : exec .recordTransfer s = .next (s.takeRecords j) := by
  have hstage : s.loading = some (.records j) := hloader ▸ loading_of_loading hpart hreset
  show Host.Outcome.next (match s.loading with
    | some (.records j) => s.takeRecords j
    | _ => s) = _
  rw [hstage]

/-- The state once the records of a transfer are judged. -/
def State.judgedTransfer (s : State) (j : Nat) : State :=
  ([0, 1, 2, 3, 4, 5, 6, 7].map fun i => (Fin.ofNat 1024 (8 * j + i) : SlotNo)).foldl State.judgeRecord s

theorem judgedTransfer_rest (s : State) (j : Nat) :
    { s.judgedTransfer j with
      cm := s.cm, sn := { (s.judgedTransfer j).sn with slots := s.sn.slots }, du := s.du } = s := by
  unfold State.judgedTransfer
  exact foldl_judgeRecord_rest _ s

/-- The records of a transfer, with the whole of it on the line. -/
theorem judgeRecords_transfer (s : State) (j : Nat) :
    (s.drive (loadTransfer (64 + 64 * j))).judgeRecords (8 * j) 8 =
      (s.judgedTransfer j).drive (loadEvents (64 + 64 * j)) := by
  rw [judgeRecords_eq_foldl, foldl_judgeRecord_drive, loadTransfer_eq]
  rfl

theorem takeRecords_next {s : State} {j : Nat} (h : j < 127) : s.takeRecords j =
    ((s.judgedTransfer j).drive (loadEvents (64 + 64 * j))).setLoader (.records (j + 1)) := by
  unfold State.takeRecords
  dsimp only
  rw [judgeRecords_transfer, if_pos h]

theorem takeRecords_last {s : State} {j : Nat} {h : Header} (hj : ¬ j < 127)
    (hheader : (s.judgedTransfer j).sc.header = some h) :
    s.takeRecords j = ((s.judgedTransfer j).drive (loadEvents (64 + 64 * j))).enterRunning h := by
  have hheader' : ((s.judgedTransfer j).drive (loadEvents (64 + 64 * j))).sc.header = some h := by
    rw [State.drive_sc, hheader]
  unfold State.takeRecords
  rw [judgeRecords_transfer]
  generalize (s.judgedTransfer j).drive (loadEvents (64 + 64 * j)) = u at hheader' ⊢
  dsimp only
  rw [if_neg hj, hheader']

/-- The entry to RUNNING, field by field (R171). -/
theorem enterRunning_eq (s : State) (h : Header) : s.enterRunning h = { s with
    part := .running
    bi := { s.bi with bases := some h.bases, pairing := none }
    cl := { s.cl with role := some h.role }
    du := s.du.raised .loadDone (Fin.ofNat 2048 s.outsideCopper)
    sc := { s.sc with params := h.params, loader := .done, header := none } } := by
  unfold State.enterRunning
  rw [raise_eq]

/-- Settles O11: the records judged are those of the transfer (`judgeRecords_transfer`), and they leave the rest
(`judgedTransfer_rest`). -/
theorem recordTransferAndEntryToRunning : Obligations.RecordTransferAndEntryToRunning := by
  intro j h s hpart hreset hloader hj hheader u
  refine ⟨s.takeRecords j, exec_recordTransfer hpart hreset hloader, ?_⟩
  have hu : u = s.judgedTransfer j := rfl
  have hrest : { u with cm := s.cm, sn := { u.sn with slots := s.sn.slots }, du := s.du } = s :=
    hu ▸ judgedTransfer_rest s j
  clear_value u
  have hcp : u.cp = s.cp := (congrArg State.cp hrest :)
  have hft : u.ft = s.ft := (congrArg State.ft hrest :)
  have hsc : u.sc = s.sc := (congrArg State.sc hrest :)
  have hstore : u.store = s.store := (congrArg State.store hrest :)
  have hports : u.ports = s.ports := (congrArg State.ports hrest :)
  have hdue : u.due = s.due := (congrArg State.due hrest :)
  have hpending : u.pending = s.pending := (congrArg State.pending hrest :)
  have hcl : u.cl = s.cl := (congrArg State.cl hrest :)
  by_cases hnext : j < 127
  · have hupart : u.part = .loading := (congrArg State.part hrest :).trans hpart
    have hbi : u.bi = s.bi := (congrArg State.bi hrest :)
    rw [takeRecords_next hnext, ← hu, ← hports, ← hcp, ← hft, ← hstore, ← hdue, ← hpending, ← hbi, ← hcl, ← hsc]
    rw [← hsc] at hheader
    exact ⟨rfl, rfl, rfl, rfl, rfl, rfl, rfl, rfl, rfl, rfl, rfl,
      fun _ => ⟨hupart, rfl, rfl, rfl, rfl, hheader, rfl⟩, fun hlast => absurd hlast (Nat.ne_of_lt hnext)⟩
  · rw [← hsc, hu] at hheader
    rw [takeRecords_last hnext hheader, ← hu, enterRunning_eq, ← hports, ← hcp, ← hft, ← hstore, ← hdue, ← hpending,
      ← hcl, ← hsc]
    exact ⟨rfl, rfl, rfl, rfl, rfl, rfl, rfl, rfl, rfl, rfl, rfl, fun h => absurd h hnext,
      fun _ => ⟨rfl, rfl, rfl, rfl, rfl, rfl, rfl⟩⟩

end Sys2Proof.Machine
end

section
/-! SUPPORT. The bus rows with an effect: incoming sample writes (R6 to R8), route reads (R10, R11, R13), directive writes
(R152) and report reads (R16), and every access outside RUNNING (R3); and the statements that they settle. -/

namespace Sys2Proof.Machine

/-! ## Outside RUNNING -/

/-- Settles O22: outside RUNNING and in the reset no access is classified. -/
theorem accessOutsideRunningPassesUnchanged : Obligations.AccessOutsideRunningPassesUnchanged := by
  intro i x s hi hdue houtside
  have hnot : ¬ (s.part = .running ∧ s.resetHeld = false) := fun ⟨hpart, hreset⟩ =>
    houtside.elim (· hpart) fun hheld => Bool.false_ne_true (hreset.symm.trans hheld)
  rw [exec_busAccess hi, busRow_of_due_nil hdue, State.access, if_neg hnot, pass_eq]

/-! ## Incoming sample writes -/

/-- The channel of an offset in the sample store (R2). -/
theorem channelAt_of_mod {c : Channel} {k : Nat} (h : c.val = k % 2048) : channelAt k = c :=
  Fin.ext h.symm

theorem exec_incomingSampleWrite_steady {a : Addr} {b : Bases} {k : Nat} {c : Channel} {s : State} (w : BusWord)
    (hs : s.steady) (hb : s.bi.bases = some b) (ha : b.sampleAt a k) (hc : c.val = k % 2048) :
    exec (.incomingSampleWrite a w) s = .next (s.sampleWrite c .engine a w) := by
  rw [exec_busAccess_steady rfl hs hb]
  unfold State.classified
  dsimp only
  rw [regionOf_sampleAt ha, ← channelAt_of_mod hc]

/-- Settles O23, by the IN setting of the active route. -/
theorem incomingSampleWriteActsByTheInSetting : Obligations.IncomingSampleWriteActsByTheInSetting := by
  intro a w k b c s hs hb ha hc passed
  rw [exec_incomingSampleWrite_steady w hs hb ha hc]
  unfold State.sampleWrite
  refine ⟨fun hin hnone => ?_, fun j hin hsome => ?_, fun p hsource => ?_⟩
  · rw [hin, hnone]; rfl
  · rw [hin, hsome]; rfl
  · refine ⟨substituted w.data p, parityGood_freshParity _, substituted_flags _ _, substituted_pattern _ _, ?_⟩
    obtain ⟨hin, hword⟩ | ⟨hin, hidle⟩ := hsource
    · have hfibre : s.fibreWord c = p := by
        unfold State.fibreWord
        cases hr : s.register c with
        | none => rw [hr] at hword; cases hword
        | some y => rw [hr] at hword; exact Option.some_inj.mp hword
      rw [hin, ← hfibre]; rfl
    · rw [hin, idleOf_of_some hidle]; rfl

/-! ## Route reads -/

/-- A word of the route store is put there, the other regions lying elsewhere (R2). -/
theorem regionOf_routeAt {b : Bases} {a : Addr} {k : Nat} (hb : b.apart) (h : b.routeAt a k) :
    regionOf b a = .route k := by
  obtain ⟨hat, hlt⟩ := h
  obtain ⟨-, -, -, hsample, -, -⟩ := hb
  have hs : offsetIn b.sample 4096 a = none := offsetIn_eq_none (by omega)
  unfold regionOf
  rw [hs, offsetIn_eq_some.mpr ⟨hat, hlt⟩]

/-- The captures once an OPEN pairing is broken: a wanted one is handed over damaged (R10, R15). -/
def State.brokenCaptures (s : State) : Assoc Channel Capture :=
  match s.bi.pairing with
  | none => s.cl.captures
  | some p =>
    if p.wanted = true then
      Assoc.put s.cl.captures p.channel ⟨pattern p.supervision (codeOf (s.idleOf p.channel)), true⟩
    else s.cl.captures

/-- A broken pairing changes the pairing register and the captures only. -/
theorem breakPairing_eq (s : State) : s.breakPairing =
    { s with bi := { s.bi with pairing := none }, cl := { s.cl with captures := s.brokenCaptures } } := by
  obtain ⟨part, held, ft, ⟨bases, pairing, registers⟩, cm, cp, cl, sn, du, sc, store, ports, due, used, pending⟩ := s
  unfold State.breakPairing State.brokenCaptures
  cases pairing with
  | none => rfl
  | some p =>
    dsimp only
    split <;> rfl

theorem find_brokenCaptures_wanted {s : State} {p : Pairing} (h : s.bi.pairing = some p) (hw : p.wanted = true) :
    Assoc.find s.brokenCaptures p.channel = some ⟨pattern p.supervision (codeOf (s.idleOf p.channel)), true⟩ := by
  unfold State.brokenCaptures
  rw [h]
  dsimp only
  rw [if_pos hw, Assoc.find_put_same]

theorem find_brokenCaptures_other {s : State} {d : Channel}
    (h : ∀ p, s.bi.pairing = some p → p.wanted = true → p.channel ≠ d) :
    Assoc.find s.brokenCaptures d = Assoc.find s.cl.captures d := by
  unfold State.brokenCaptures
  cases hp : s.bi.pairing with
  | none => rfl
  | some p =>
    dsimp only
    split
    · rename_i hw
      exact Assoc.find_put_other _ _ (h p hp hw).symm
    · rfl

/-- The captures after a route read of `w` for channel `c`: an entry without CONNECTED completes a wanted capture at once
(R11). -/
def State.capturesAfterRouteRead (s : State) (c : Channel) (w : BusWord) : Assoc Channel Capture :=
  if ((s.channel c).active.tap.wants && !connected w.data) = true then
    Assoc.put s.brokenCaptures c ⟨pattern (routeSupervision w.data) (codeOf (s.idleOf c)), !parityGood w⟩
  else s.brokenCaptures

/-- A route read changes the pairing register, the captures and the ports only. -/
theorem routeReadFor_eq (s : State) (c : Channel) (m : Master) (a : Addr) (w : BusWord) : s.routeReadFor c m a w = { s with
    bi := { s.bi with
      pairing := if connected w.data = true then
          some ⟨c, routeSupervision w.data, (s.channel c).active.tap.wants, !parityGood w⟩
        else none }
    cl := { s.cl with captures := s.capturesAfterRouteRead c w }
    ports := { s.ports with storeSide := some (.read m a), returned := some (s.routeReturned c w) } } := by
  unfold State.routeReadFor State.capturesAfterRouteRead
  dsimp only
  rw [breakPairing_eq]
  cases connected w.data <;> cases (s.channel c).active.tap.wants <;> rfl

theorem wants_eq (t : Tap) : t.wants = decide (t ≠ .none) := by cases t <;> rfl

/-- Settles O25: the state after is `routeReadFor_eq`'s, and its captures go by the channel. -/
theorem routeReadOpensOrCompletesThePairing : Obligations.RouteReadOpensOrCompletesThePairing := by
  intro a w k b c s hs hb hapart ha hc wanted atOnce
  have hchannel : channelAt k = c := channelAt_of_mod (by rw [hc, Nat.mod_eq_of_lt (hc ▸ c.isLt)])
  have hexec : exec (.routeRead a w) s = .next (s.routeReadFor c .engine a w) := by
    rw [exec_busAccess_steady rfl hs hb]
    unfold State.classified
    dsimp only
    rw [regionOf_routeAt hapart ha, ← hchannel]
  have hwants : (s.channel c).active.tap.wants = wanted := wants_eq _
  have hcaptures : s.capturesAfterRouteRead c w = if atOnce = true then
      Assoc.put s.brokenCaptures c ⟨pattern (routeSupervision w.data) (codeOf (s.idleOf c)), !parityGood w⟩
      else s.brokenCaptures := by
    unfold State.capturesAfterRouteRead
    rw [hwants]
    rfl
  rw [hexec, routeReadFor_eq, hcaptures, hwants]
  refine ⟨_, rfl, rfl, rfl, rfl, rfl, fun hout => ?_, fun p hout hidle => ?_, fun p q hp hw hother hidle => ?_,
    fun q honce hidle => ?_, fun d hnot hbroken => ?_⟩
  · unfold State.routeReturned
    rw [hout]
  · unfold State.routeReturned
    rw [hout, idleOf_of_some hidle]
    exact ⟨_, rfl, parityGood_freshParity _, BitVec.extractLsb'_append_eq_right, BitVec.extractLsb'_append_eq_left⟩
  · show Assoc.find (if atOnce = true then _ else _) p.channel = _
    rw [← idleOf_of_some hidle]
    split
    · rename_i honce
      rw [Assoc.find_put_other _ _ fun h => hother ⟨h, honce⟩]
      exact find_brokenCaptures_wanted hp hw
    · exact find_brokenCaptures_wanted hp hw
  · show Assoc.find (if atOnce = true then _ else _) c = _
    rw [if_pos honce, Assoc.find_put_same, idleOf_of_some hidle]
    rfl
  · show Assoc.find (if atOnce = true then _ else _) d = _
    split
    · rename_i honce
      rw [Assoc.find_put_other _ _ fun h => hnot ⟨h, honce⟩]
      exact find_brokenCaptures_other hbroken
    · exact find_brokenCaptures_other hbroken

/-! ## Directive writes -/

/-- Every bit of the mask after a good D7 write is its value bit where its enable is set (R152). -/
theorem getLsbD_maskAfter (mask : BitVec 4) (w : Word) {j : Nat} (h : j < 4) : (maskAfter mask w).getLsbD j =
    if w.getLsbD (8 + j) = true then w.getLsbD j else mask.getLsbD j := by
  unfold maskAfter
  simp only [BitVec.getLsbD_or, BitVec.getLsbD_and, BitVec.getLsbD_not, BitVec.getLsbD_extractLsb', h, decide_true,
    Bool.true_and, Nat.zero_add]
  cases w.getLsbD (8 + j) <;> simp

/-- What a directive write leaves in DU, for every word but a good D0 (R152). -/
theorem take_directiveWrite {n : Nat} {w : BusWord} (h : n ≠ 0 ∨ parityGood w = false) (d : DirectiveUnit) :
    d.take n w = { d with
      latches := d.latches.mod n fun x => if parityGood w = true then Latch.write w.data else x.spoil
      parity := if parityGood w = true then d.parity else true
      mask := if n = 7 ∧ parityGood w = true then maskAfter d.mask w.data else d.mask } := by
  unfold DirectiveUnit.take
  cases hgood : parityGood w with
  | false => simp
  | true =>
    have hn : n ≠ 0 := h.resolve_right (by rw [hgood]; exact Bool.noConfusion)
    simp only [if_true]
    split
    · exact absurd rfl hn
    · rfl
    · rename_i h7
      rw [if_neg fun h => h7 h.1]

/-- A latch changed is that of its word; no other word has one. -/
theorem Latches.mod_eq (x : Latches) (n : Nat) (f : Latch → Latch) : x.mod n f =
    ⟨if n = 1 then f x.d1 else x.d1, if n = 2 then f x.d2 else x.d2, if n = 3 then f x.d3 else x.d3,
      if n = 4 then f x.d4 else x.d4⟩ := by
  unfold Latches.mod
  split
  · rfl
  · rfl
  · rfl
  · rfl
  · rename_i h1 h2 h3 h4
    rw [if_neg h1, if_neg h2, if_neg h3, if_neg h4]

/-- Settles O28: DU after the write is `take_directiveWrite`'s. -/
theorem directiveWritesLatchByTheirOffset : Obligations.DirectiveWritesLatchByTheirOffset := by
  intro i a w n b s hi hs hb hapart ha hnot good latch
  rw [exec_directiveWrite_steady hi hs hb hapart ha, take_directiveWrite hnot]
  refine ⟨_, rfl, rfl, rfl, rfl, ?_, rfl, fun j hj => ?_⟩
  · dsimp only
    rw [Latches.mod_eq]
    rfl
  · show (if n = 7 ∧ parityGood w = true then maskAfter s.du.mask w.data else s.du.mask).getLsbD j = _
    by_cases h7 : n = 7 ∧ parityGood w = true
    · rw [if_pos h7, getLsbD_maskAfter _ _ hj]
      simp only [h7.1, show good = true from h7.2, true_and]
    · rw [if_neg h7, if_neg fun h => h7 ⟨h.1, h.2.1⟩]

/-! ## Report reads -/

/-- A report word is put in the report words, the other regions lying elsewhere (R2). -/
theorem regionOf_reportAt {b : Bases} {a : Addr} {k : Nat} (hb : b.apart) (h : b.reportAt a k) :
    regionOf b a = .report k := by
  obtain ⟨hat, hlt⟩ := h
  obtain ⟨-, -, -, -, hsample, hroute⟩ := hb
  have hs : offsetIn b.sample 4096 a = none := offsetIn_eq_none (by omega)
  have hr : offsetIn b.route 2048 a = none := offsetIn_eq_none (by omega)
  have hd : offsetIn b.directive 24 a = some (8 + k) := offsetIn_eq_some.mpr ⟨by omega, by omega⟩
  unfold regionOf
  rw [hs, hr, hd]
  dsimp only
  rw [if_neg (by omega), Nat.add_sub_cancel_left]

/-- RP6 in step mode with no directive in progress (R160). -/
theorem readStep_of_stepMode {d : DirectiveUnit} {m : StepMode} (hidle : d.inProgress = none)
    (hm : d.stepMode = some m) : d.readStep =
      if m.kind.last ≤ m.last then { d with stepMode := none }
      else { d with inProgress := some {
        code := if m.kind = .inspect then 6 else 7, step := true, tag := m.tag, copies := d.latches,
        stepOf := some (m.kind, m.last + 1) } } := by
  have hbusy : ¬ d.busy = true := by simp [DirectiveUnit.busy, hidle]
  unfold DirectiveUnit.readStep
  rw [if_neg hbusy, hm]
  dsimp only
  split
  · rfl
  · cases m.kind <;> rfl

theorem readStep_of_nothing {d : DirectiveUnit} (h : d.inProgress ≠ none ∨ d.stepMode = none) : d.readStep = d := by
  unfold DirectiveUnit.readStep
  by_cases hbusy : d.busy = true
  · rw [if_pos hbusy]
  · have hidle : ¬ d.inProgress ≠ none := fun hp => hbusy (Option.isSome_iff_ne_none.mpr hp)
    rw [if_neg hbusy, h.resolve_left hidle]

theorem last_eq (k : StepKind) : k.last = if k = .inspect then 2047 else 1023 := by cases k <;> rfl

/-- Settles O29: the word is given before the side effect, which goes by the word's number. -/
theorem reportReadReturnsTheWordThenActs : Obligations.ReportReadReturnsTheWordThenActs := by
  intro i a w n b s hi hs hb hapart ha
  refine ⟨s.reportReadAt n .controller a, freshParity (s.reportWord n), ?_, rfl, rfl, parityGood_freshParity _, rfl,
    ?_, ?_, ?_, ?_, ?_⟩
  · rw [exec_busAccess_steady hi hs hb]
    unfold State.classified
    dsimp only
    rw [regionOf_reportAt hapart ha]
  · rintro rfl; rfl
  · rintro rfl
    show s.du.readEvent = _
    unfold DirectiveUnit.readEvent
    rw [← List.drop_one]
  · rintro rfl; rfl
  · rintro rfl
    show (_ → s.du.readStep = s.du) ∧ ∀ m, _ → _ → (_ → s.du.readStep = _) ∧ (_ → s.du.readStep = _)
    refine ⟨readStep_of_nothing, fun m hidle hm => ⟨fun hlast => ?_, fun hmore => ?_⟩⟩
    · rw [readStep_of_stepMode hidle hm, if_pos (by rw [last_eq]; exact hlast)]
    · rw [readStep_of_stepMode hidle hm, if_neg (by rw [last_eq]; exact Nat.not_le_of_lt hmore)]
  · intro h0 h6 h7 h8
    show s.du.reportRead n = s.du
    unfold DirectiveUnit.reportRead
    split
    · exact absurd rfl h0
    · exact absurd rfl h6
    · exact absurd rfl h7
    · exact absurd rfl h8
    · rfl

end Sys2Proof.Machine
end

section
/-! SUPPORT. What the operations on one channel make of a state, each as one equation. -/

namespace Sys2Proof

namespace Assoc

variable {κ α : Type} [DecidableEq κ] [LT κ] [DecidableLT κ] [Std.Irrefl (α := κ) (· < ·)]

/-- A key given two values keeps the second. -/
theorem put_put (m : Assoc κ α) (k : κ) (v w : α) : put (put m k v) k w = put m k w := by
  have hirrefl : ¬ k < k := Std.Irrefl.irrefl k
  have hagain (l : Assoc κ α) : put ((k, v) :: l) k w = (k, w) :: l := by
    rw [put_cons, if_neg hirrefl, if_pos rfl]
  induction m with
  | nil => exact hagain []
  | cons p t ih =>
    obtain ⟨j, x⟩ := p
    rw [put_cons, put_cons]
    by_cases hlt : k < j
    · rw [if_pos hlt, if_pos hlt, hagain]
    · by_cases heq : j = k
      · rw [if_neg hlt, if_pos heq, if_neg hlt, if_pos heq, hagain]
      · rw [if_neg hlt, if_neg heq, if_neg hlt, if_neg heq, put_cons, if_neg hlt, if_neg heq, ih]

end Assoc

namespace Machine.State

/-! ## Contexts -/

/-- The contexts once that of a channel is changed. -/
def contextsChanged (s : State) (c : Channel) (f : Context → Context) : Assoc CtxNo Context :=
  match (s.channel c).context with
  | none => s.cp.contexts
  | some k =>
    match s.context k with
    | none => s.cp.contexts
    | some x => Assoc.put s.cp.contexts k (f x)

/-- A change of a channel's context changes the contexts only. -/
theorem modContextOf_eq (s : State) (c : Channel) (f : Context → Context) :
    s.modContextOf c f = { s with cp := { s.cp with contexts := s.contextsChanged c f } } := by
  unfold modContextOf contextsChanged
  cases (s.channel c).context with
  | none => rfl
  | some k =>
    unfold modContext
    dsimp only
    cases s.context k <;> rfl

theorem context_contextsChanged_same {s : State} {c : Channel} {k : CtxNo} {x : Context} (f : Context → Context)
    (hk : (s.channel c).context = some k) (hx : s.context k = some x) :
    Assoc.find (s.contextsChanged c f) k = some (f x) := by
  unfold contextsChanged
  rw [hk]
  dsimp only
  rw [hx]
  exact Assoc.find_put_same _ _ _

theorem context_contextsChanged_other {s : State} {c : Channel} {j : CtxNo} (f : Context → Context)
    (h : some j ≠ (s.channel c).context) : Assoc.find (s.contextsChanged c f) j = s.context j := by
  unfold contextsChanged
  cases hk : (s.channel c).context with
  | none => rfl
  | some k =>
    dsimp only
    cases hx : s.context k with
    | none => rfl
    | some x => exact Assoc.find_put_other _ _ fun e => h (by rw [hk, e])

theorem contextsChanged_of_none {s : State} {c : Channel} (f : Context → Context)
    (h : (s.channel c).context = none) : s.contextsChanged c f = s.cp.contexts := by
  unfold contextsChanged
  rw [h]

/-- The contexts once that of a channel is handed back (R53). -/
def contextsWithout (s : State) (c : Channel) : Assoc CtxNo Context :=
  match (s.channel c).context with
  | none => s.cp.contexts
  | some k => Assoc.drop s.cp.contexts k

/-- A hand-back changes the channel's record and the contexts. -/
theorem handBack_eq_contextsWithout (s : State) (c : Channel) : s.handBack c = { s with
    cm := Assoc.put s.cm c { s.channel c with context := none, lag := 0 }
    cp := { s.cp with contexts := s.contextsWithout c } } := by
  rw [handBack_eq]
  unfold contextsWithout
  cases (s.channel c).context <;> rfl

theorem contextFreed_contextsWithout {s t : State} {c : Channel} (h : t.cp.contexts = s.contextsWithout c) :
    contextFreed (s.channel c).context s t := by
  unfold contextFreed keepsOtherContexts context
  rw [h]
  unfold contextsWithout
  cases (s.channel c).context with
  | none => exact ⟨nofun, fun _ _ => rfl⟩
  | some k =>
    refine ⟨fun j hj => ?_, fun j hj => ?_⟩
    · cases hj
      exact Assoc.find_drop_same _ _
    · exact Assoc.find_drop_other _ fun e => hj (congrArg some e)

/-! ## Records and slots -/

theorem keepsOtherChannels_put {s t : State} {c : Channel} {r : ChannelRecord} (h : t.cm = Assoc.put s.cm c r) :
    keepsOtherChannels c s t := by
  intro d hd
  unfold channel
  rw [h, Assoc.find_put_other _ _ hd]

theorem channel_put {s t : State} {c : Channel} {r : ChannelRecord} (h : t.cm = Assoc.put s.cm c r) :
    t.channel c = r := by
  unfold channel
  rw [h, Assoc.find_put_same]
  rfl

theorem slot_put {s t : State} {n : SlotNo} {e : SlotEntry} (h : t.sn.slots = Assoc.put s.sn.slots n e) :
    t.slot n = e := by
  unfold slot
  rw [h, Assoc.find_put_same]
  rfl

theorem keepsOtherSlots_put {s t : State} {n : SlotNo} {e : SlotEntry} (h : t.sn.slots = Assoc.put s.sn.slots n e) :
    keepsOtherSlots (some n) s t := by
  intro m hm
  unfold slot
  rw [h, Assoc.find_put_other _ _ fun e => hm (congrArg some e)]

/-- The slot entries once that of a channel is set FREE. -/
def slotsWithout (s : State) (c : Channel) : Assoc SlotNo SlotEntry :=
  match (s.channel c).slot with
  | none => s.sn.slots
  | some n => Assoc.put s.sn.slots n (s.slot n).freed

theorem slotFreed_slotsWithout {s t : State} {c : Channel} (h : t.sn.slots = s.slotsWithout c) :
    slotFreed (s.channel c).slot s t := by
  unfold slotsWithout at h
  cases hn : (s.channel c).slot with
  | none =>
    rw [hn] at h
    exact ⟨nofun, fun m _ => slot_of_slots h m⟩
  | some n =>
    rw [hn] at h
    refine ⟨fun m hm => ?_, keepsOtherSlots_put h⟩
    cases hm
    exact slot_put h

/-- A release of a channel's slot followed by a change of its record. -/
theorem modChannel_releaseSlotOf (s : State) (c : Channel) (f : ChannelRecord → ChannelRecord) :
    (s.releaseSlotOf c).modChannel c f = { s with
      cm := Assoc.put s.cm c (f { s.channel c with slot := none })
      sn := { s.sn with slots := s.slotsWithout c } } := by
  unfold slotsWithout
  cases h : (s.channel c).slot with
  | none =>
    rw [releaseSlotOf_eq_none h]
    have : { s.channel c with slot := none } = s.channel c := by rw [← h]
    rw [this]
    rfl
  | some n =>
    rw [releaseSlotOf_eq_some h]
    have hchannel : ((s.freeSlot n).modChannel c fun r => { r with slot := none }).channel c =
        { s.channel c with slot := none } := channel_modChannel_same _ _ _
    unfold modChannel setChannel at hchannel ⊢
    rw [hchannel]
    dsimp only
    rw [Assoc.put_put]
    rfl

/-! ## Store requests -/

/-- Taking the head request starts where no write is in flight (R144). -/
theorem kickStore_eq (s : State) : s.kickStore = { s with
    due := s.due ++ if s.sc.flight = none ∧ s.sc.queue ≠ [] then [.storeWriteStart] else [] } := by
  unfold kickStore
  simp only [Option.isNone_iff_eq_none]
  split
  · rfl
  · rw [List.append_nil]

theorem appendStore_eq (s : State) (r : WriteRequest) : s.appendStore r = { s with
    sc := { s.sc with queue := s.sc.queue ++ [r] }
    due := s.due ++ if s.sc.flight = none then [.storeWriteStart] else [] } := by
  unfold appendStore
  rw [kickStore_eq]
  have hne : s.sc.queue ++ [r] ≠ [] := List.append_ne_nil_of_right_ne_nil _ (List.cons_ne_nil _ _)
  simp only [hne, and_true, ne_eq, not_false_eq_true]

end Machine.State

end Sys2Proof
end

section
/-! SUPPORT. The run of a directive (R154): the checks that refuse it, and each directive's own (R155 to R161); and the
statements that they settle. -/

namespace Sys2Proof.Machine

namespace State

/-! ## Which run a directive has -/

/-- With no own step due and no directive in progress nothing runs. -/
theorem exec_directiveRun_idle {s : State} (hdue : s.due = []) (h : s.du.inProgress = none) :
    exec .directiveRun s = .next s := by
  show Host.Outcome.next s.settled.runDirective = _
  rw [settled_of_due_nil hdue]
  unfold runDirective
  rw [h]

/-- A step shows its number, and goes on (R160). -/
theorem exec_directiveRun_step {d : Directive} {s : State} {k : StepKind} {n : Nat} (hdue : s.due = [])
    (hd : s.du.inProgress = some d) (hstep : d.stepOf = some (k, n)) :
    exec .directiveRun s = .next (s.completeView d k n true) := by
  show Host.Outcome.next s.settled.runDirective = _
  rw [settled_of_due_nil hdue]
  unfold runDirective
  rw [hd]
  dsimp only
  rw [hstep]

theorem complete_eq (s : State) (d : Directive) (o : DirectiveOutcome) (r : Results) :
    s.complete d o r = { s with du := s.du.completed d.tag o r } := rfl

theorem runCommand_badCode {d : Directive} (h : d.code.toNat = 0 ∨ 9 < d.code.toNat) (s : State) :
    s.runCommand d = s.refuse d .code := if_pos h

theorem runCommand_inDoubt {d : Directive} (h : ¬ (d.code.toNat = 0 ∨ 9 < d.code.toNat)) (hd : d.inDoubt = true)
    (s : State) : s.runCommand d = s.refuse d .parity := by
  unfold runCommand
  rw [if_neg h, if_pos hd]

theorem runCommand_enrol {d : Directive} (h : d.code = 1#4) (h1 : d.copies.d1.doubt = false)
    (h2 : d.copies.d2.doubt = false) (h3 : d.copies.d3.doubt = false) (h4 : d.copies.d4.doubt = false) (s : State) :
    s.runCommand d = s.runEnrol d := by
  simp [runCommand, Directive.inDoubt, h, h1, h2, h3, h4]

theorem runCommand_cut {d : Directive} (h : d.code = 2#4) (h1 : d.copies.d1.doubt = false) (s : State) :
    s.runCommand d = s.runCut d := by
  simp [runCommand, Directive.inDoubt, h, h1]

theorem runCommand_retire {d : Directive} (h : d.code = 3#4) (h1 : d.copies.d1.doubt = false) (s : State) :
    s.runCommand d = s.runRetire d := by
  simp [runCommand, Directive.inDoubt, h, h1]

theorem runCommand_recall {d : Directive} (h : d.code = 4#4) (h1 : d.copies.d1.doubt = false) (s : State) :
    s.runCommand d = s.runRecall d := by
  simp [runCommand, Directive.inDoubt, h, h1]

theorem runCommand_withdraw {d : Directive} (h : d.code = 5#4) (h1 : d.copies.d1.doubt = false) (s : State) :
    s.runCommand d = s.runWithdraw d := by
  simp [runCommand, Directive.inDoubt, h, h1]

theorem runCommand_inspect {d : Directive} (h : d.code = 6#4) (h1 : d.copies.d1.doubt = false) (s : State) :
    s.runCommand d = s.runView d .inspect := by
  simp [runCommand, Directive.inDoubt, h, h1]

theorem runCommand_slotview {d : Directive} (h : d.code = 7#4) (h1 : d.copies.d1.doubt = false) (s : State) :
    s.runCommand d = s.runView d .slotview := by
  simp [runCommand, Directive.inDoubt, h, h1]

theorem runCommand_set {d : Directive} (h : d.code = 8#4) (h1 : d.copies.d1.doubt = false)
    (h2 : d.copies.d2.doubt = false) (s : State) : s.runCommand d = s.runSet d := by
  simp [runCommand, Directive.inDoubt, h, h1, h2]

end State

/-- What a directive of a known code reads that was in doubt when it started (R154). -/
theorem inDoubt_of_latch {d : Directive}
    (h : (1 ≤ d.code.toNat ∧ d.code.toNat ≤ 8 ∧ d.copies.d1.doubt = true) ∨
      ((d.code = 1#4 ∨ d.code = 8#4) ∧ d.copies.d2.doubt = true) ∨
      (d.code = 1#4 ∧ (d.copies.d3.doubt = true ∨ d.copies.d4.doubt = true))) :
    ¬ (d.code.toNat = 0 ∨ 9 < d.code.toNat) ∧ d.inDoubt = true := by
  unfold Directive.inDoubt
  obtain ⟨hlow, hhigh, h1⟩ | ⟨hcode | hcode, h2⟩ | ⟨hcode, h3 | h4⟩ := h
  · refine ⟨by omega, ?_⟩
    dsimp only
    split
    · simp [h1]
    · simp [h1]
    · omega
    · exact h1
  · simp [hcode, h2]
  · simp [hcode, h2]
  · simp [hcode, h3]
  · simp [hcode, h4]

/-- Settles O31: CODE before PARITY (`runCommand_badCode`, `runCommand_inDoubt`), neither with another effect. -/
theorem runRefusesUnknownCodesAndDoubtedLatches : Obligations.RunRefusesUnknownCodesAndDoubtedLatches := by
  intro s hdue
  refine ⟨State.exec_directiveRun_idle hdue, fun d hd hstep => ⟨fun hcode => ?_, fun hdoubt => ?_⟩⟩
  · rw [State.exec_directiveRun_command hdue hd hstep, State.runCommand_badCode hcode]
    rfl
  · obtain ⟨hcode, hin⟩ := inDoubt_of_latch hdoubt
    rw [State.exec_directiveRun_command hdue hd hstep, State.runCommand_inDoubt hcode hin]
    rfl

/-! ## INSPECT, SLOTVIEW and SET -/

namespace State

theorem completeView_eq (s : State) (d : Directive) (k : StepKind) (n : Nat) (stepping : Bool) :
    s.completeView d k n stepping = { s with du := { s.du.completed d.tag .done (s.viewResults k n) with
      stepMode := if stepping = true then some ⟨k, n, d.tag⟩ else s.du.stepMode } } := by
  cases stepping <;> rfl

theorem runView_of_le {d : Directive} {k : StepKind} (h : d.copies.d1.value.toNat ≤ k.last) (s : State) :
    s.runView d k = s.completeView d k d.copies.d1.value.toNat d.step := if_pos h

theorem runView_of_lt {d : Directive} {k : StepKind} (h : k.last < d.copies.d1.value.toNat) (s : State) :
    s.runView d k = s.refuse d .range := if_neg (Nat.not_le_of_lt h)

theorem viewResults_inspect (s : State) (c : Channel) : s.viewResults .inspect c.val = s.inspectResults c := by
  unfold viewResults
  dsimp only
  rw [show (Fin.ofNat 2048 c.val : Channel) = c from Fin.ext (Nat.mod_eq_of_lt c.isLt)]

theorem viewResults_slotview (s : State) (n : SlotNo) : s.viewResults .slotview n.val = s.slotviewResults n := by
  unfold viewResults
  dsimp only
  rw [show (Fin.ofNat 1024 n.val : SlotNo) = n from Fin.ext (Nat.mod_eq_of_lt n.isLt)]

end State

/-- Settles O35: the results are those of the number (`viewResults_inspect`, `viewResults_slotview`). -/
theorem viewsFillTheResultsOfTheirNumber : Obligations.ViewsFillTheResultsOfTheirNumber := by
  intro d s hdue hd shown number
  refine ⟨fun hstep h1 => ⟨?_, fun c hcode hc => ?_, fun n hcode hn => ?_⟩, fun c hstep => ?_, fun n hstep => ?_⟩
  · rw [State.exec_directiveRun_command hdue hd hstep]
    rintro (⟨hcode, hrange⟩ | ⟨hcode, hrange⟩)
    · rw [State.runCommand_inspect hcode h1, State.runView_of_lt (d := d) (k := .inspect) hrange]
      rfl
    · rw [State.runCommand_slotview hcode h1, State.runView_of_lt (d := d) (k := .slotview) hrange]
      rfl
  · have hrange : number ≤ StepKind.inspect.last := by rw [hc]; exact Nat.le_of_lt_succ c.isLt
    rw [State.exec_directiveRun_command hdue hd hstep, State.runCommand_inspect hcode h1,
      State.runView_of_le hrange, State.completeView_eq, ← State.viewResults_inspect, ← hc]
  · have hrange : number ≤ StepKind.slotview.last := by rw [hn]; exact Nat.le_of_lt_succ n.isLt
    rw [State.exec_directiveRun_command hdue hd hstep, State.runCommand_slotview hcode h1,
      State.runView_of_le hrange, State.completeView_eq, ← State.viewResults_slotview, ← hn]
  · rw [State.exec_directiveRun_step hdue hd hstep, State.completeView_eq, State.viewResults_inspect]
    rfl
  · rw [State.exec_directiveRun_step hdue hd hstep, State.completeView_eq, State.viewResults_slotview]
    rfl

/-- A value that `set?` places is the value of its parameter after (R161). -/
theorem value_of_set? {p q : Params} {id v : Nat} (h : p.set? id v = some q) : q.value id = v := by
  unfold Params.set? at h
  split at h
  case h_9 =>
    split at h
    · rename_i hv
      cases h
      show (BitVec.ofNat 12 v).toNat = v
      rw [BitVec.toNat_ofNat, Nat.mod_eq_of_lt hv]
    · cases h
  case h_10 => cases h
  all_goals
    split at h
    · cases h
      rfl
    · cases h

theorem runSet_of_none {d : Directive} {s : State}
    (h : s.sc.params.set? d.copies.d1.value.toNat d.copies.d2.value.toNat = none) :
    s.runSet d = s.refuse d .range := by
  unfold State.runSet
  dsimp only
  rw [h]

/-- An accepted SET shows the value that it placed (R161). -/
theorem runSet_of_some {d : Directive} {s : State} {q : Params}
    (h : s.sc.params.set? d.copies.d1.value.toNat d.copies.d2.value.toNat = some q) : s.runSet d = { s with
      sc := { s.sc with params := q }
      du := s.du.completed d.tag .done ⟨d.copies.d1.value,
        BitVec.ofNat 16 (s.sc.params.value d.copies.d1.value.toNat), d.copies.d2.value, 0, 0, 0⟩ } := by
  unfold State.runSet
  dsimp only
  rw [h]
  dsimp only
  rw [value_of_set? h, BitVec.ofNat_toNat, BitVec.setWidth_eq]
  rfl

/-- Settles O36: each id by its range in `Params.set?`. -/
theorem setPlacesAParameterInItsRange : Obligations.SetPlacesAParameterInItsRange := by
  intro d s hdue hd hstep hcode h1 h2 id v p accepted inRange
  rw [State.exec_directiveRun_command hdue hd hstep, State.runCommand_set hcode h1 h2]
  have hrefused (h : p.set? id v = none) :
      Host.Outcome.next (s.runSet d) = (.next { s with
        du := s.du.completed d.tag .range ⟨0, 0, 0, 0, 0, 0⟩ } : Host.Outcome State Fault Refusal) := by
    rw [runSet_of_none h]
    rfl
  have haccepted {q : Params} (h : p.set? id v = some q) :
      Host.Outcome.next (s.runSet d) = (.next (accepted (p.value id) q) : Host.Outcome State Fault Refusal) := by
    rw [runSet_of_some h]
  clear_value accepted
  generalize id = i at *
  generalize v = w at *
  match i with
  | 0 => exact ⟨fun _ => hrefused rfl, fun h => h.elim⟩
  | 1 => exact ⟨fun h => hrefused (if_neg h), fun h => haccepted (if_pos h)⟩
  | 2 => exact ⟨fun h => hrefused (if_neg h), fun h => haccepted (if_pos h)⟩
  | 3 => exact ⟨fun h => hrefused (if_neg h), fun h => haccepted (if_pos h)⟩
  | 4 => exact ⟨fun h => hrefused (if_neg h), fun h => haccepted (if_pos h)⟩
  | 5 => exact ⟨fun h => hrefused (if_neg h), fun h => haccepted (if_pos h)⟩
  | 6 => exact ⟨fun h => hrefused (if_neg h), fun h => haccepted (if_pos h)⟩
  | 7 => exact ⟨fun h => hrefused (if_neg h), fun h => haccepted (if_pos h)⟩
  | 8 => exact ⟨fun h => hrefused (if_neg h), fun h => haccepted (if_pos h)⟩
  | 9 => exact ⟨fun h => hrefused (if_neg fun h' => h (Nat.le_of_lt_succ h')),
      fun h => haccepted (if_pos (Nat.lt_succ_of_le h))⟩
  | n + 10 => exact ⟨fun _ => hrefused rfl, fun h => h.elim⟩

/-! ## The single-channel directives -/

theorem channel_of_names {d : Directive} {code : BitVec 4} {c : Channel} (h : d.names code c) : d.channel = some c := by
  obtain ⟨-, -, -, hnumber⟩ := h
  unfold Directive.channel
  rw [hnumber, if_pos (Nat.le_of_lt_succ c.isLt)]
  exact congrArg some (Fin.ext (Nat.mod_eq_of_lt c.isLt))

theorem channel_out_of_range {d : Directive} (h : 2047 < d.copies.d1.value.toNat) : d.channel = none :=
  if_neg (Nat.not_le_of_lt h)

theorem linkIsUp_iff (s : State) : s.linkIsUp = true ↔ s.cl.link = .up := by
  unfold State.linkIsUp
  rw [beq_iff_eq]

theorem storeFull_iff (s : State) : s.storeFull = true ↔ 16 ≤ s.sc.queue.length := decide_eq_true_iff

namespace State

/-- A change of the record that keeps the context field leaves the channel its context. -/
theorem contextsChanged_put {s t : State} {c : Channel} {r : ChannelRecord} (f : Context → Context)
    (hcm : t.cm = Assoc.put s.cm c r) (hr : r.context = (s.channel c).context) (hcp : t.cp = s.cp) :
    t.contextsChanged c f = s.contextsChanged c f := by
  unfold contextsChanged context
  rw [channel_put hcm, hr, hcp]

theorem claimCut_eq {s : State} {c : Channel} (h : (s.channel c).phase = .proven) : s.claimCut c = some { s with
    cm := Assoc.put s.cm c ((s.channel c).moved .cutting .pass .pass .shadow)
    cp := { s.cp with contexts := s.contextsChanged c fun x => { x with cutAttempts := 0 } }
    sn := { s.sn with queue := s.sn.queue ++ [⟨.cut, c⟩] } } := by
  unfold claimCut
  rw [if_pos h, modContextOf_eq]
  have hcontexts : (s.modChannel c fun r => r.enter .cutting).contextsChanged c (fun x => { x with cutAttempts := 0 }) =
      s.contextsChanged c fun x => { x with cutAttempts := 0 } :=
    contextsChanged_put (r := (s.channel c).enter .cutting) _ rfl rfl rfl
  rw [hcontexts]
  rfl

theorem claimCut_stale {s : State} {c : Channel} (h : (s.channel c).phase ≠ .proven) : s.claimCut c = none := if_neg h

/-- The retire claim, where the record has what it needs (R37). -/
theorem claimRetire_eq {s : State} {c : Channel} {n : SlotNo} {l : Word} {p : Pattern}
    (hphase : (s.channel c).phase = .carried) (hcollapsed : (s.channel c).collapsed = true)
    (hslot : (s.channel c).slot = some n) (hlabel : (s.channel c).label = some l) (hidle : (s.channel c).idle = some p) :
    s.claimRetire c = some { s with
      cm := Assoc.put s.cm c ((s.channel c).moved .retiring .fibre .pass .live)
      sc := { s.sc with queue := s.sc.queue ++ [⟨.retire, c, n, l, p⟩] }
      due := s.due ++ if s.sc.flight = none then [.storeWriteStart] else [] } := by
  unfold claimRetire
  dsimp only
  rw [hslot, hlabel]
  dsimp only
  rw [if_pos ⟨hphase, hcollapsed⟩, appendStore_eq, idleOf_of_some hidle]
  rfl

theorem claimRetire_stale {s : State} {c : Channel}
    (h : ¬ ((s.channel c).phase = .carried ∧ (s.channel c).collapsed = true)) : s.claimRetire c = none := by
  unfold claimRetire
  dsimp only
  split
  · rw [if_neg h]
  · rfl

/-- The recall claim, where the record has what it needs (R38). -/
theorem claimRecall_eq {s : State} {c : Channel} {n : SlotNo} {l : Word} {p : Pattern} {o : RecallOrigin}
    (hphase : (s.channel c).phase = .retired ∧ o = .retired ∨ (s.channel c).phase = .stranded ∧ o = .stranded)
    (hslot : (s.channel c).slot = some n) (hlabel : (s.channel c).label = some l) (hidle : (s.channel c).idle = some p) :
    s.claimRecall c = some { s with
      cm := Assoc.put s.cm c { (s.channel c).moved .recalling .fibre .idle .live with origin := some o }
      sc := { s.sc with queue := s.sc.queue ++ [⟨.void, c, n, l, p⟩] }
      due := s.due ++ if s.sc.flight = none then [.storeWriteStart] else [] } := by
  unfold claimRecall
  dsimp only
  rw [hslot, hlabel]
  dsimp only
  rw [idleOf_of_some hidle]
  obtain ⟨hphase, rfl⟩ | ⟨hphase, rfl⟩ := hphase
  · rw [hphase]
    dsimp only
    rw [appendStore_eq]
    rfl
  · rw [hphase]
    dsimp only
    rw [appendStore_eq]
    rfl

theorem claimRecall_stale {s : State} {c : Channel} (hretired : (s.channel c).phase ≠ .retired)
    (hstranded : (s.channel c).phase ≠ .stranded) : s.claimRecall c = none := by
  unfold claimRecall
  dsimp only
  split
  · split
    · exact absurd (by assumption) hretired
    · exact absurd (by assumption) hstranded
    · rfl
  · rfl

end State

/-- Settles O33: the four RANGEs, and then the checks in their order up to the claims of `claimCut_eq` and
`claimRetire_eq`. -/
theorem cutAndRetireAreCheckedThenClaimed : Obligations.CutAndRetireAreCheckedThenClaimed := by
  intro d s hdue hd
  have hrun {code : BitVec 4} {c : Channel} (h : d.names code c) : exec .directiveRun s = .next (s.runCommand d) :=
    State.exec_directiveRun_command hdue hd h.1
  refine ⟨fun code hcodes hstep hcode h1 hrange => ?_, fun c => ?_⟩
  · have hnone := channel_out_of_range hrange
    rw [State.exec_directiveRun_command hdue hd hstep]
    obtain rfl | rfl | rfl | rfl := hcodes
    · rw [State.runCommand_cut hcode h1, State.runCut, hnone]; rfl
    · rw [State.runCommand_retire hcode h1, State.runRetire, hnone]; rfl
    · rw [State.runCommand_recall hcode h1, State.runRecall, hnone]; rfl
    · rw [State.runCommand_withdraw hcode h1, State.runWithdraw, hnone]; rfl
  intro r refused
  have hcut (h : d.names 2 c) : exec .directiveRun s = .next
      (if s.linkIsUp = true then s.completeClaim d c (s.claimCut c) else s.completeChannel d c .link) := by
    have ⟨_, hcode, h1, _⟩ := h
    rw [hrun h, State.runCommand_cut hcode h1, State.runCut, channel_of_names h]
  have hretire (h : d.names 3 c) : exec .directiveRun s = .next
      (if s.linkIsUp = true then
        if s.storeFull = true then s.completeChannel d c .full else s.completeClaim d c (s.claimRetire c)
      else s.completeChannel d c .link) := by
    have ⟨_, hcode, h1, _⟩ := h
    rw [hrun h, State.runCommand_retire hcode h1, State.runRetire, channel_of_names h]
  refine ⟨fun h hlink => ?_, fun h hlink hphase => ?_, fun h hlink hphase => ?_, fun h hlink => ?_,
    fun h hlink hfull => ?_, fun h hlink hroom hnot => ?_,
    fun n l p h hlink hroom hphase hcollapsed hslot hlabel hidle => ?_⟩
  · rw [hcut h, if_neg ((not_congr (linkIsUp_iff s)).mpr hlink)]; rfl
  · rw [hcut h, if_pos ((linkIsUp_iff s).mpr hlink), State.claimCut_stale hphase]; rfl
  · rw [hcut h, if_pos ((linkIsUp_iff s).mpr hlink), State.claimCut_eq hphase]
    refine ⟨_, rfl, State.channel_put rfl, State.keepsOtherChannels_put rfl, fun k x hk hx => ?_, fun j hj => ?_, rfl, rfl,
      rfl, rfl⟩
    · exact State.context_contextsChanged_same _ hk hx
    · exact State.context_contextsChanged_other _ hj
  · rw [hretire h, if_neg ((not_congr (linkIsUp_iff s)).mpr hlink)]; rfl
  · rw [hretire h, if_pos ((linkIsUp_iff s).mpr hlink), if_pos ((storeFull_iff s).mpr hfull)]; rfl
  · rw [hretire h, if_pos ((linkIsUp_iff s).mpr hlink),
      if_neg ((not_congr (storeFull_iff s)).mpr (Nat.not_le_of_lt hroom)), State.claimRetire_stale hnot]
    rfl
  · rw [hretire h, if_pos ((linkIsUp_iff s).mpr hlink),
      if_neg ((not_congr (storeFull_iff s)).mpr (Nat.not_le_of_lt hroom)),
      State.claimRetire_eq hphase hcollapsed hslot hlabel hidle]
    refine ⟨_, rfl, State.channel_put rfl, State.keepsOtherChannels_put rfl, rfl, rfl, ?_, rfl⟩
    show s.due ++ _ = _
    rw [hdue, List.nil_append]

/-! ## WITHDRAW -/

namespace State

/-- WITHDRAW in ENROLLED (R41). -/
theorem claimWithdraw_enrolled {s : State} {c : Channel} (h : (s.channel c).phase = .enrolled) :
    s.claimWithdraw c = some { s with
      cm := Assoc.put s.cm c { (s.channel c).moved .copper .pass .pass .none with label := none }
      cp := { s.cp with queue := s.cp.queue.filter fun x => decide (x ≠ c) } } := by
  unfold claimWithdraw
  dsimp only
  rw [h]
  rfl

/-- What a hand-back of the context and a release of the slot make of a channel, with its request of a kind withdrawn
between them and its record changed behind. -/
theorem modChannel_releaseSlotOf_withdrawn (s : State) (k : NoticeKind) (c : Channel)
    (f : ChannelRecord → ChannelRecord) : (((s.handBack c).withdrawNotice k c).releaseSlotOf c).modChannel c f = { s with
      cm := Assoc.put s.cm c (f { s.channel c with context := none, lag := 0, slot := none })
      cp := { s.cp with contexts := s.contextsWithout c }
      sn := { s.sn with
        slots := s.slotsWithout c
        queue := s.queueWithout k c
        outstanding := s.outstandingWithout k c } } := by
  rw [modChannel_releaseSlotOf, withdrawNotice_eq, handBack_eq_contextsWithout]
  let u : State := { s with
    cm := Assoc.put s.cm c { s.channel c with context := none, lag := 0 }
    cp := { s.cp with contexts := s.contextsWithout c } }
  have hchannel : u.channel c = { s.channel c with context := none, lag := 0 } :=
    channel_put (s := s) rfl
  have hslots : u.slotsWithout c = s.slotsWithout c := by
    unfold slotsWithout
    rw [hchannel]
    rfl
  change { u with
      cm := Assoc.put u.cm c (f { u.channel c with slot := none })
      sn := { s.sn with
        slots := u.slotsWithout c
        queue := s.queueWithout k c
        outstanding := s.outstandingWithout k c } } = _
  rw [hchannel, hslots]
  show { s with cm := Assoc.put (Assoc.put s.cm c _) c _, cp := _, sn := _ } = _
  rw [Assoc.put_put]

/-- WITHDRAW in JOINING (R41). -/
theorem claimWithdraw_joining {s : State} {c : Channel} (h : (s.channel c).phase = .joining) :
    s.claimWithdraw c = some { s with
      cm := Assoc.put s.cm c { (s.channel c).moved .copper .pass .pass .none with
        label := none, slot := none, context := none, lag := 0 }
      cp := { s.cp with contexts := s.contextsWithout c }
      sn := { s.sn with
        slots := s.slotsWithout c
        queue := s.queueWithout .join c
        outstanding := s.outstandingWithout .join c } } := by
  unfold claimWithdraw
  dsimp only
  rw [h]
  dsimp only
  rw [modChannel_releaseSlotOf_withdrawn]
  rfl

end State

end Sys2Proof.Machine
end

section
/-! SUPPORT. RECALL, WITHDRAW and ENROL (R155, R157): their claims as equations, and the statements that they settle. -/

namespace Sys2Proof.Machine

namespace State

/-- A change of a record that has just been placed. -/
theorem modChannel_of_put {s u : State} {c : Channel} {r : ChannelRecord} (f : ChannelRecord → ChannelRecord)
    (h : u.cm = Assoc.put s.cm c r) : u.modChannel c f = { u with cm := Assoc.put s.cm c (f r) } := by
  unfold modChannel setChannel
  rw [channel_put h, h, Assoc.put_put]

/-- WITHDRAW from SHADOW to CARRIED hands the context back before the leave (R41). -/
theorem claimWithdraw_of_holder {s : State} {c : Channel}
    (h : (s.channel c).phase ∈ [.shadow, .proven, .cutting, .carried]) :
    s.claimWithdraw c = some ((((s.handBack c).dropCut c).modChannel c
      fun r => { r.enter .leaving with collapsed := false, lag := 0 }).appendNotice .leave c) := by
  unfold claimWithdraw
  simp only [List.mem_cons, List.not_mem_nil, or_false] at h
  obtain h | h | h | h := h <;> rw [h]

/-- WITHDRAW from SHADOW to CARRIED, and in FALLEN where no context is held (R41). -/
theorem claimWithdraw_leaver {s : State} {c : Channel}
    (h : (s.channel c).phase ∈ [.shadow, .proven, .cutting, .carried, .fallen])
    (hfallen : (s.channel c).phase = .fallen → (s.channel c).context = none) :
    s.claimWithdraw c = some { s with
      cm := Assoc.put s.cm c { (s.channel c).moved .leaving .pass .pass .none with
        context := none, lag := 0, collapsed := false }
      cp := ⟨s.contextsWithout c,
        if (s.channel c).phase = .fallen then s.cp.queue.filter fun x => decide (x ≠ c) else s.cp.queue⟩
      sn := { s.sn with
        queue := s.queueWithout .cut c ++ [⟨.leave, c⟩]
        outstanding := s.outstandingWithout .cut c
        schedules := Assoc.drop s.sn.schedules c } } := by
  by_cases hphase : (s.channel c).phase = .fallen
  · have hnone := hfallen hphase
    have hcontexts : s.contextsWithout c = s.cp.contexts := by
      unfold contextsWithout
      rw [hnone]
    rw [if_pos hphase, hcontexts, ← hnone]
    unfold claimWithdraw
    rw [hphase]
    dsimp only
    rw [dropCut_eq]
    rfl
  · have hholder : (s.channel c).phase ∈ [.shadow, .proven, .cutting, .carried] := by
      simpa [hphase] using h
    rw [if_neg hphase, claimWithdraw_of_holder hholder, dropCut_eq, handBack_eq_contextsWithout,
      modChannel_of_put (s := s) (r := { s.channel c with context := none, lag := 0 }) _ rfl]
    rfl

theorem claimWithdraw_stale {s : State} {c : Channel}
    (h : (s.channel c).phase ∈ [.copper, .leaving, .retiring, .retired, .recalling, .stranded]) :
    s.claimWithdraw c = none := by
  unfold claimWithdraw
  simp only [List.mem_cons, List.not_mem_nil, or_false] at h
  obtain h | h | h | h | h | h := h <;> rw [h]

theorem leavesFull_iff (s : State) :
    s.leavesFull = true ↔ 32 ≤ (s.sn.queue.filter fun x => decide (x.kind = .leave)).length := decide_eq_true_iff

end State

theorem inGroup_iff (p : Phase) : p.inGroup = true ↔ p ∈ [.shadow, .proven, .cutting, .carried, .fallen] := by
  cases p <;> decide

/-- Settles O34: the checks in their order, up to the claims of `claimRecall_eq` and `claimWithdraw_leaver`. -/
theorem recallAndWithdrawAreCheckedThenClaimed : Obligations.RecallAndWithdrawAreCheckedThenClaimed := by
  intro d c s hdue hd r refused leaves leaver
  have hrun {code : BitVec 4} (h : d.names code c) : exec .directiveRun s = .next (s.runCommand d) :=
    State.exec_directiveRun_command hdue hd h.1
  have hrecall (h : d.names 4 c) : exec .directiveRun s = .next
      (if s.storeFull = true then s.completeChannel d c .full else s.completeClaim d c (s.claimRecall c)) := by
    have ⟨_, hcode, h1, _⟩ := h
    rw [hrun h, State.runCommand_recall hcode h1, State.runRecall, channel_of_names h]
  have hwithdraw (h : d.names 5 c) : exec .directiveRun s = .next
      (if r.phase.inGroup = true ∧ s.leavesFull = true then s.completeChannel d c .full
      else s.completeClaim d c (s.claimWithdraw c)) := by
    have ⟨_, hcode, h1, _⟩ := h
    rw [hrun h, State.runCommand_withdraw hcode h1, State.runWithdraw, channel_of_names h]
  have hleaver_not {p : Phase} (h : r.phase = p) (hp : p ∉ [.shadow, .proven, .cutting, .carried, .fallen]) : ¬ leaver :=
    fun h' => hp (by rw [← h]; exact h')
  refine ⟨fun h hfull => ?_, fun h hroom hretired hstranded => ?_, fun n l p o h hroom hphase hslot hlabel hidle => ?_,
    fun h hleaver hfull => ?_, fun h hphase => ?_, fun h hphase => ?_⟩
  · rw [hrecall h, if_pos ((storeFull_iff s).mpr hfull)]; rfl
  · rw [hrecall h, if_neg ((not_congr (storeFull_iff s)).mpr (Nat.not_le_of_lt hroom)),
      State.claimRecall_stale hretired hstranded]
    rfl
  · rw [hrecall h, if_neg ((not_congr (storeFull_iff s)).mpr (Nat.not_le_of_lt hroom)),
      State.claimRecall_eq hphase hslot hlabel hidle]
    refine ⟨_, rfl, State.channel_put rfl, State.keepsOtherChannels_put rfl, rfl, rfl, ?_, rfl⟩
    show s.due ++ _ = _
    rw [hdue, List.nil_append]
  · rw [hwithdraw h, if_pos ⟨(inGroup_iff _).mpr hleaver, (State.leavesFull_iff s).mpr hfull⟩]; rfl
  · have hgroup : r.phase.inGroup = false := by
      simp only [List.mem_cons, List.not_mem_nil, or_false] at hphase
      obtain h | h | h | h | h | h := hphase <;> rw [h] <;> rfl
    rw [hwithdraw h, if_neg (by rw [hgroup]; nofun), State.claimWithdraw_stale hphase]
    rfl
  · obtain hphase | hphase | ⟨hleaver, hroom, hfallen⟩ := hphase
    · rw [hwithdraw h, if_neg (by rw [hphase]; nofun), State.claimWithdraw_enrolled hphase]
      refine ⟨_, rfl, State.keepsOtherChannels_put rfl, rfl, rfl, rfl,
        fun _ => ⟨State.channel_put rfl, rfl, fun _ => rfl, rfl⟩, fun h' => ?_, fun h' => ?_⟩
      · exact absurd (hphase.symm.trans h') (by decide)
      · exact absurd h' (hleaver_not hphase (by decide))
    · rw [hwithdraw h, if_neg (by rw [hphase]; nofun), State.claimWithdraw_joining hphase]
      refine ⟨_, rfl, State.keepsOtherChannels_put rfl, rfl, rfl, rfl, fun h' => ?_, fun _ => ?_, fun h' => ?_⟩
      · exact absurd (hphase.symm.trans h') (by decide)
      · exact ⟨State.channel_put rfl, State.contextFreed_contextsWithout rfl, rfl, State.slotFreed_slotsWithout rfl, rfl,
          rfl, rfl⟩
      · exact absurd h' (hleaver_not hphase (by decide))
    · rw [hwithdraw h, if_neg fun ⟨_, hfull⟩ => Nat.not_le_of_lt hroom ((State.leavesFull_iff s).mp hfull),
        State.claimWithdraw_leaver hleaver hfallen]
      refine ⟨_, rfl, State.keepsOtherChannels_put rfl, rfl, rfl, rfl, fun h' => ?_, fun h' => ?_, fun _ => ?_⟩
      · exact absurd hleaver (hleaver_not h' (by decide))
      · exact absurd hleaver (hleaver_not h' (by decide))
      · exact ⟨State.channel_put rfl, State.contextFreed_contextsWithout rfl, rfl, fun _ => rfl, rfl, rfl,
          Assoc.find_drop_same _ _, fun _ h => Assoc.find_drop_other _ h⟩

/-! ## ENROL -/

namespace State

/-- The COPPER channels of a range, in ascending order. -/
def enrollable (s : State) (first count : Nat) : List Channel :=
  ((List.range' first count).map (Fin.ofNat 2048)).filter fun c => decide ((s.channel c).phase = .copper)

theorem enrollable_eq (s : State) (first count : Nat) : s.enrollable first count =
    ((List.range count).map fun k => (Fin.ofNat 2048 (first + k) : Channel)).filter
      fun c => decide ((s.channel c).phase = .copper) := by
  unfold enrollable
  rw [List.range'_eq_map_range, List.map_map]
  rfl

theorem enrollable_succ_of_copper {s : State} {first : Nat} (count : Nat)
    (h : (s.channel (Fin.ofNat 2048 first)).phase = .copper) :
    s.enrollable first (count + 1) = Fin.ofNat 2048 first :: s.enrollable (first + 1) count := by
  unfold enrollable
  rw [List.range'_succ, List.map_cons, List.filter_cons_of_pos (by rw [h]; rfl)]

theorem enrollable_succ_of_not_copper {s : State} {first : Nat} (count : Nat)
    (h : (s.channel (Fin.ofNat 2048 first)).phase ≠ .copper) :
    s.enrollable first (count + 1) = s.enrollable (first + 1) count := by
  unfold enrollable
  rw [List.range'_succ, List.map_cons, List.filter_cons_of_neg (by simpa using h)]

/-- A channel that may be taken lies in the range. -/
theorem le_of_mem_enrollable {s : State} {c : Channel} {first count : Nat} (hrange : first + count ≤ 2048)
    (h : c ∈ s.enrollable first count) : first ≤ c.val := by
  obtain ⟨n, hn, rfl⟩ := List.mem_map.mp (List.mem_filter.mp h).1
  obtain ⟨hlow, hhigh⟩ := List.mem_range'_1.mp hn
  rw [Fin.val_ofNat, Nat.mod_eq_of_lt (by omega)]
  exact hlow

/-- Which channels of a range are COPPER goes by their records alone. -/
theorem enrollable_congr {s t : State} {first count : Nat} (hrange : first + count ≤ 2048)
    (h : ∀ c : Channel, first ≤ c.val → t.channel c = s.channel c) :
    t.enrollable first count = s.enrollable first count := by
  unfold enrollable
  refine List.filter_congr fun c hc => ?_
  obtain ⟨n, hn, rfl⟩ := List.mem_map.mp hc
  obtain ⟨hlow, hhigh⟩ := List.mem_range'_1.mp hn
  rw [h]
  rw [Fin.val_ofNat, Nat.mod_eq_of_lt (by omega)]
  exact hlow

theorem enrollable_length_le (s : State) (first count : Nat) : (s.enrollable first count).length ≤ count :=
  calc (s.enrollable first count).length
    _ ≤ ((List.range' first count).map (Fin.ofNat 2048)).length := List.length_filter_le _ _
    _ = count := by rw [List.length_map, List.length_range']

/-- A record that ENROL takes (R29). -/
def enrolled (r : ChannelRecord) (label : Word) (idle : Pattern) : ChannelRecord :=
  { r with phase := .enrolled, label := some label, idle := some idle, pending := ⟨.pass, .pass, .none⟩ }

/-- What the enrol claim over a range makes of a state (R29). -/
structure EnrolSpec (s t : State) (first label count : Nat) (idle : Pattern) : Prop where
  rest : { t with cm := s.cm, cp := { t.cp with queue := s.cp.queue } } = s
  queue : t.cp.queue = s.cp.queue ++ s.enrollable first count
  taken : ∀ k (c : Channel), k < count → c.val = first + k → (s.channel c).phase = .copper →
    t.channel c = enrolled (s.channel c) (BitVec.ofNat 16 (label + k)) idle
  others : ∀ c, c ∉ s.enrollable first count → t.channel c = s.channel c

theorem enrolRange_succ_of_copper {s : State} {first label count : Nat} {idle : Pattern}
    (h : (s.channel (Fin.ofNat 2048 first)).phase = .copper) :
    s.enrolRange first label idle (count + 1) =
      let r := State.enrolRange (s.enrolOne (Fin.ofNat 2048 first) (BitVec.ofNat 16 label) idle) (first + 1) (label + 1)
        idle count
      (r.1, r.2.1 + 1, r.2.2) := if_pos h

theorem enrolRange_succ_of_not_copper {s : State} {first label count : Nat} {idle : Pattern}
    (h : (s.channel (Fin.ofNat 2048 first)).phase ≠ .copper) :
    s.enrolRange first label idle (count + 1) =
      let r := State.enrolRange s (first + 1) (label + 1) idle count
      (r.1, r.2.1, r.2.2 + 1) := if_neg h

/-- The enrol claim takes the COPPER channels of its range, and counts them and the others. -/
theorem enrolRange_spec (idle : Pattern) (count : Nat) : ∀ (s : State) (first label : Nat), first + count ≤ 2048 →
    EnrolSpec s (s.enrolRange first label idle count).1 first label count idle ∧
    (s.enrolRange first label idle count).2 =
      ((s.enrollable first count).length, count - (s.enrollable first count).length) := by
  induction count with
  | zero =>
    intro s first label _
    exact ⟨⟨rfl, (List.append_nil _).symm, fun k _ hk => absurd hk (Nat.not_lt_zero k), fun _ _ => rfl⟩, rfl⟩
  | succ count ih =>
    intro s first label hrange
    have hfirst : (Fin.ofNat 2048 first : Channel).val = first := Nat.mod_eq_of_lt (by omega)
    by_cases hcopper : (s.channel (Fin.ofNat 2048 first)).phase = .copper
    · let u := s.enrolOne (Fin.ofNat 2048 first) (BitVec.ofNat 16 label) idle
      have hu : u.channel (Fin.ofNat 2048 first) =
          enrolled (s.channel (Fin.ofNat 2048 first)) (BitVec.ofNat 16 label) idle := channel_put (s := s) rfl
      have hother : keepsOtherChannels (Fin.ofNat 2048 first) s u := keepsOtherChannels_put rfl
      have hlater (c : Channel) (hc : first + 1 ≤ c.val) : u.channel c = s.channel c :=
        hother c fun e => by rw [e, hfirst] at hc; omega
      have hsame : u.enrollable (first + 1) count = s.enrollable (first + 1) count :=
        enrollable_congr (by omega) hlater
      obtain ⟨⟨hrest, hqueue, htaken, hothers⟩, hcounts⟩ := ih u (first + 1) (label + 1) (by omega)
      rw [hsame] at hqueue hothers hcounts
      rw [enrolRange_succ_of_copper hcopper, enrollable_succ_of_copper count hcopper]
      refine ⟨⟨?_, ?_, fun k c hk hc hphase => ?_, fun c hc => ?_⟩, ?_⟩
      · exact congrArg (fun x : State => { x with cm := s.cm, cp := { x.cp with queue := s.cp.queue } }) hrest
      · rw [enrollable_succ_of_copper count hcopper]
        exact hqueue.trans (by rw [show u.cp.queue = s.cp.queue ++ [Fin.ofNat 2048 first] from rfl, List.append_assoc]
                               rfl)
      · cases k with
        | zero =>
          have hce : c = Fin.ofNat 2048 first := Fin.ext (by rw [hc, hfirst]; rfl)
          have hnot : (Fin.ofNat 2048 first : Channel) ∉ s.enrollable (first + 1) count := fun h => by
            have := le_of_mem_enrollable (by omega) h
            omega
          rw [hce]
          exact (hothers _ hnot).trans hu
        | succ k =>
          have hsamec := hlater c (by omega)
          have := htaken k c (by omega) (by omega) (by rw [hsamec]; exact hphase)
          rwa [hsamec, show label + 1 + k = label + (k + 1) by omega] at this
      · rw [enrollable_succ_of_copper count hcopper, List.mem_cons, not_or] at hc
        exact (hothers c hc.2).trans (hother c hc.1)
      · refine Prod.ext (congrArg (·.1 + 1) hcounts) ?_
        refine (congrArg Prod.snd hcounts).trans ?_
        rw [List.length_cons, Nat.add_sub_add_right]
    · obtain ⟨⟨hrest, hqueue, htaken, hothers⟩, hcounts⟩ := ih s (first + 1) (label + 1) (by omega)
      have hlength := s.enrollable_length_le (first + 1) count
      rw [enrolRange_succ_of_not_copper hcopper, enrollable_succ_of_not_copper count hcopper]
      refine ⟨⟨hrest, ?_, fun k c hk hc hphase => ?_, fun c hc => ?_⟩, ?_⟩
      · rw [enrollable_succ_of_not_copper count hcopper]; exact hqueue
      · cases k with
        | zero => exact absurd ((Fin.ext (by rw [hc, hfirst]; rfl) : c = Fin.ofNat 2048 first) ▸ hphase) hcopper
        | succ k =>
          have := htaken k c (by omega) (by omega) hphase
          rwa [show label + 1 + k = label + (k + 1) by omega] at this
      · rw [enrollable_succ_of_not_copper count hcopper] at hc
        exact hothers c hc
      · refine Prod.ext (congrArg (·.1) hcounts :) ?_
        refine (congrArg (·.2 + 1) hcounts).trans ?_
        show _ - _ + 1 = _
        omega

/-- A label of a range is held outside COPPER (R155). -/
theorem labelTaken_iff (s : State) (count : Nat) : ∀ label, s.labelTaken label count = true ↔
    ∃ k, k < count ∧ ∃ p ∈ s.cm, p.2.phase ≠ .copper ∧ p.2.label = some (BitVec.ofNat 16 (label + k)) := by
  induction count with
  | zero => exact fun label => ⟨nofun, fun ⟨k, hk, _⟩ => absurd hk (Nat.not_lt_zero k)⟩
  | succ count ih =>
    intro label
    unfold labelTaken
    rw [Bool.or_eq_true, channelOfLabel_isSome, ih]
    constructor
    · rintro (h | ⟨k, hk, h⟩)
      · exact ⟨0, Nat.zero_lt_succ _, h⟩
      · exact ⟨k + 1, Nat.succ_lt_succ hk, by rwa [show label + (k + 1) = label + 1 + k by omega]⟩
    · rintro ⟨_ | k, hk, h⟩
      · exact .inl h
      · exact .inr ⟨k, Nat.lt_of_succ_lt_succ hk, by rwa [show label + 1 + k = label + (k + 1) by omega]⟩

end State

/-- Settles O32: the refusals in their order, and the claim over the range by `enrolRange_spec`. -/
theorem enrolTakesARangeIntoMigration : Obligations.EnrolTakesARangeIntoMigration := by
  intro d s hdue hd hstep hcode h1 h2 h3 h4 first count label refused inRange held outside idle taken
  have hrun : exec .directiveRun s = .next (s.runEnrol d) := by
    rw [State.exec_directiveRun_command hdue hd hstep, State.runCommand_enrol hcode h1 h2 h3 h4]
  have hrange : inRange ↔ ¬ (count = 0 ∨ 32 < count ∨ 2047 < first + count - 1 ∨ 65535 < label + count - 1) := by
    show (_ ∧ _ ∧ _ ∧ _) ↔ _
    omega
  have hheld : s.labelTaken label count = true ↔ held := State.labelTaken_iff s count label
  have htaken : s.enrollable first count = taken := State.enrollable_eq s first count
  rw [hrun]
  unfold State.runEnrol
  refine ⟨fun h => ?_, fun h hlabel => ?_, fun h hlabel hfull => ?_, fun h hlabel hroom => ?_⟩
  · rw [if_pos (Decidable.not_not.mp fun h' => h (hrange.mpr h'))]; rfl
  · rw [if_neg (hrange.mp h), if_pos (hheld.mpr hlabel)]; rfl
  · rw [if_neg (hrange.mp h), if_neg ((not_congr hheld).mpr hlabel)]
    exact congrArg Host.Outcome.next (if_pos hfull)
  · rw [if_neg (hrange.mp h), if_neg ((not_congr hheld).mpr hlabel),
      if_neg (show ¬ Config.channelBound < s.outsideCopper + d.copies.d2.value.toNat from Nat.not_lt_of_le hroom)]
    have hfits : first + count ≤ 2048 := by
      have := hrange.mp h
      omega
    obtain ⟨⟨hrest, hqueue, hrecords, hothers⟩, hcounts⟩ := State.enrolRange_spec idle count s first label hfits
    rw [htaken] at hqueue hothers hcounts
    refine ⟨_, rfl, ?_, ?_, hqueue, hrecords, hothers⟩
    · exact congrArg (fun x : State => { x with du := s.du }) hrest
    · show DirectiveUnit.completed (State.enrolRange s first label idle count).1.du _ _ _ = _
      rw [(congrArg State.du hrest :)]
      exact congrArg (fun n : Nat × Nat => s.du.completed d.tag .done
        ⟨BitVec.ofNat 16 n.1, BitVec.ofNat 16 n.2, 0, 0, 0, 0⟩) hcounts

end Sys2Proof.Machine
end

section
/-! SUPPORT. The own steps of the context pool and of the notice unit (R31, R50, R52, R87, R91, R98), and the statements
that they settle. -/

namespace Sys2Proof

namespace Assoc

/-- The lowest number that passes a test, where it searches from a number on. -/
theorem lowest_eq_some {p : Nat → Bool} {n m : Nat} : ∀ {fuel : Nat}, fuel ≤ n → n - fuel ≤ m → m < n → p m = true →
    (∀ j, n - fuel ≤ j → j < m → p j = false) → lowest p n fuel = some m := by
  intro fuel
  induction fuel with
  | zero => intro _ hlow hhigh; omega
  | succ fuel ih =>
    intro hfuel hlow hhigh hm hbelow
    unfold lowest
    by_cases hfirst : n - (fuel + 1) = m
    · rw [hfirst, if_pos hm]
    · rw [if_neg (by rw [hbelow _ (Nat.le_refl _) (by omega)]; nofun)]
      exact ih (by omega) (by omega) hhigh hm fun j hj => hbelow j (by omega)

theorem lowest_eq_none {p : Nat → Bool} {n : Nat} (h : ∀ j, j < n → p j = false) :
    ∀ {fuel : Nat}, fuel ≤ n → lowest p n fuel = none := by
  intro fuel
  induction fuel with
  | zero => exact fun _ => rfl
  | succ fuel ih =>
    intro hfuel
    unfold lowest
    rw [if_neg (by rw [h _ (by omega)]; nofun)]
    exact ih (by omega)

/-- The same over the numbers of a finite type. -/
theorem lowest_fin_eq_some {n : Nat} [NeZero n] {p : Fin n → Bool} {m : Fin n} (hm : p m = true)
    (hbelow : ∀ j, j < m → p j = false) : (lowest (fun j => p (Fin.ofNat n j)) n n).map (Fin.ofNat n) = some m := by
  have hofNat (j : Fin n) : Fin.ofNat n j.val = j := Fin.ext (Nat.mod_eq_of_lt j.isLt)
  have hlowest : lowest (fun j => p (Fin.ofNat n j)) n n = some m.val := by
    refine lowest_eq_some (Nat.le_refl _) (by omega) m.isLt (by rw [hofNat]; exact hm) fun j _ hj => hbelow _ ?_
    rw [Fin.lt_def, Fin.val_ofNat, Nat.mod_eq_of_lt (Nat.lt_trans hj m.isLt)]
    exact hj
  rw [hlowest]
  exact congrArg some (hofNat m)

theorem lowest_fin_eq_none {n : Nat} [NeZero n] {p : Fin n → Bool} (h : ∀ j, p j = false) :
    (lowest (fun j => p (Fin.ofNat n j)) n n).map (Fin.ofNat n) = none := by
  rw [lowest_eq_none (fun j _ => h _) (Nat.le_refl _)]
  rfl

end Assoc

namespace Machine

namespace State

/-! ## Free contexts and slots -/

theorem lowestFreeContext_eq_some {s : State} {k : CtxNo} (hk : s.context k = none)
    (hbelow : ∀ j, j < k → s.context j ≠ none) : s.lowestFreeContext = some k :=
  Assoc.lowest_fin_eq_some (p := fun j => (s.context j).isNone) (by rw [hk]; rfl)
    fun j hj => Option.isNone_eq_false_iff.mpr (Option.isSome_iff_ne_none.mpr (hbelow j hj))

theorem lowestFreeContext_eq_none {s : State} (h : ∀ k, s.context k ≠ none) : s.lowestFreeContext = none :=
  Assoc.lowest_fin_eq_none (p := fun j => (s.context j).isNone) fun j =>
    Option.isNone_eq_false_iff.mpr (Option.isSome_iff_ne_none.mpr (h j))

theorem lowestFreeSlot_eq_some {s : State} {n : SlotNo} (hn : (s.slot n).state = .free)
    (hbelow : ∀ m, m < n → (s.slot m).state ≠ .free) : s.lowestFreeSlot = some n :=
  Assoc.lowest_fin_eq_some (p := fun m => decide ((s.slot m).state = .free)) (by rw [hn]; rfl)
    fun m hm => by simpa using hbelow m hm

theorem lowestFreeSlot_eq_none {s : State} (h : ∀ n, (s.slot n).state ≠ .free) : s.lowestFreeSlot = none :=
  Assoc.lowest_fin_eq_none (p := fun m => decide ((s.slot m).state = .free)) fun m => by simpa using h m

/-! ## CONTEXT_ASSIGN -/

theorem assignHead_cons {s : State} {c : Channel} {rest : List Channel} {k : CtxNo} (hqueue : s.cp.queue = c :: rest)
    (hfree : s.lowestFreeContext = some k) : s.assignHead =
      let t := State.setContext { s with cp := { s.cp with queue := rest } } k (Context.fresh c)
      some ((t.claimAssign c k).getD (t.freeContext k)) := by
  unfold assignHead
  rw [hqueue, hfree]

theorem assignHead_eq_none {s : State} (h : s.cp.queue = [] ∨ s.lowestFreeContext = none) : s.assignHead = none := by
  unfold assignHead
  split
  next hqueue hfree =>
    obtain h | h := h
    · rw [h] at hqueue; cases hqueue
    · rw [h] at hfree; cases hfree
  next => rfl

theorem claimAssign_enrolled {s : State} {c : Channel} (k : CtxNo) (h : (s.channel c).phase = .enrolled) :
    s.claimAssign c k = some { s with
      cm := Assoc.put s.cm c { (s.channel c).moved .joining .pass .pass .none with context := some k }
      sn := { s.sn with queue := if s.cl.role = some .lead then s.sn.queue ++ [⟨.join, c⟩] else s.sn.queue } } := by
  unfold claimAssign
  rw [h]
  dsimp only
  by_cases hrole : s.cl.role = some .lead
  · rw [if_pos hrole, if_pos hrole]; rfl
  · rw [if_neg hrole, if_neg hrole]; rfl

theorem claimAssign_fallen {s : State} {c : Channel} (k : CtxNo) (h : (s.channel c).phase = .fallen) :
    s.claimAssign c k = some { s with
      cm := Assoc.put s.cm c { (s.channel c).moved .shadow .pass .pass .shadow with context := some k, lag := 0 } } := by
  unfold claimAssign
  rw [h]
  rfl

theorem claimAssign_stale {s : State} {c : Channel} (k : CtxNo) (henrolled : (s.channel c).phase ≠ .enrolled)
    (hfallen : (s.channel c).phase ≠ .fallen) : s.claimAssign c k = none := by
  unfold claimAssign
  split
  next h => exact absurd h henrolled
  next h => exact absurd h hfallen
  next => rfl

theorem claimAssign_due (s : State) (c : Channel) (k : CtxNo) (l : List Due) :
    State.claimAssign { s with due := l } c k = (s.claimAssign c k).map fun t => { t with due := l } := by
  by_cases henrolled : (s.channel c).phase = .enrolled
  · rw [claimAssign_enrolled k henrolled, claimAssign_enrolled (s := { s with due := l }) k henrolled]; rfl
  by_cases hfallen : (s.channel c).phase = .fallen
  · rw [claimAssign_fallen k hfallen, claimAssign_fallen (s := { s with due := l }) k hfallen]; rfl
  rw [claimAssign_stale k henrolled hfallen, claimAssign_stale (s := { s with due := l }) k henrolled hfallen]
  rfl

/-- An assignment does not look at what is due. -/
theorem assignHead_due {s : State} {c : Channel} {rest : List Channel} {k : CtxNo} (l : List Due)
    (hqueue : s.cp.queue = c :: rest) (hfree : s.lowestFreeContext = some k) :
    State.assignHead { s with due := l } = s.assignHead.map fun t => { t with due := l } := by
  rw [assignHead_cons hqueue hfree, assignHead_cons (s := { s with due := l }) hqueue hfree]
  let t := State.setContext { s with cp := { s.cp with queue := rest } } k (Context.fresh c)
  show some ((State.claimAssign { t with due := l } c k).getD (State.freeContext { t with due := l } k)) = _
  rw [claimAssign_due]
  show _ = some { (t.claimAssign c k).getD (t.freeContext k) with due := l }
  cases t.claimAssign c k <;> rfl

theorem exec_contextAssign {s : State} (h : .contextAssign ∈ s.due) :
    exec .contextAssign s = .next (State.assignContexts { s with due := s.due.erase .contextAssign }) := by
  rw [exec_ownStep rfl, own_of_mem h]
  rfl

end State

/-- Settles O38: an assignment of the head leaves what the rest of the step starts from (`assignHead_due`). -/
theorem contextAssignServesTheProofQueue : Obligations.ContextAssignServesTheProofQueue := by
  intro s hdue
  rw [State.exec_contextAssign hdue]
  refine ⟨⟨_, rfl⟩, fun hnone => ?_, fun c rest k hqueue hfree hbelow => ?_⟩
  · have hhead : State.assignHead { s with due := s.due.erase .contextAssign } = none :=
      State.assignHead_eq_none (hnone.imp id fun h => State.lowestFreeContext_eq_none h)
    unfold State.assignContexts
    cases hlength : s.cp.queue.length with
    | zero => rfl
    | succ n =>
      unfold State.assignUpTo
      rw [hhead]
  · intro r
    have hlowest := State.lowestFreeContext_eq_some hfree hbelow
    let t := State.setContext { s with cp := { s.cp with queue := rest } } k (Context.fresh c)
    let u := (t.claimAssign c k).getD (t.freeContext k)
    have hhead : s.assignHead = some u := State.assignHead_cons hqueue hlowest
    have hexec (hu : u.due = s.due) (huq : u.cp.queue = rest) :
        Host.Outcome.next (State.assignContexts { s with due := s.due.erase .contextAssign }) =
          (exec .contextAssign u : Host.Outcome State Fault Refusal) := by
      rw [State.exec_contextAssign (hu ▸ hdue), hu]
      unfold State.assignContexts
      rw [huq, hqueue, List.length_cons]
      show Host.Outcome.next (match State.assignHead { s with due := s.due.erase .contextAssign } with
        | none => _ | some t => _) = _
      rw [State.assignHead_due _ hqueue hlowest, hhead]
      rfl
    have hother (v : State) (hv : v.cp.contexts = Assoc.put s.cp.contexts k (Context.fresh c)) :
        keepsOtherContexts (some k) s v := fun j hj => by
      unfold State.context
      rw [hv, Assoc.find_put_other _ _ fun e => hj (congrArg some e)]
    have hsame (v : State) (hv : v.cp.contexts = Assoc.put s.cp.contexts k (Context.fresh c)) :
        v.context k = some (Context.fresh c) := by
      unfold State.context
      rw [hv, Assoc.find_put_same]
    by_cases henrolled : r.phase = .enrolled
    · have hu : u = _ := congrArg (Option.getD · (t.freeContext k)) (State.claimAssign_enrolled (s := t) k henrolled)
      clear_value u
      subst hu
      exact ⟨_, hexec rfl rfl, rfl, rfl, rfl, rfl, State.keepsOtherChannels_put rfl, hother _ rfl,
        fun _ => hsame _ rfl, fun _ => ⟨State.channel_put rfl, rfl⟩, fun h => absurd (henrolled.symm.trans h) nofun,
        fun h => absurd henrolled h⟩
    by_cases hfallen : r.phase = .fallen
    · have hu : u = _ := congrArg (Option.getD · (t.freeContext k)) (State.claimAssign_fallen (s := t) k hfallen)
      clear_value u
      subst hu
      exact ⟨_, hexec rfl rfl, rfl, rfl, rfl, rfl, State.keepsOtherChannels_put rfl, hother _ rfl,
        fun _ => hsame _ rfl, fun h => absurd h henrolled, fun _ => ⟨State.channel_put rfl, rfl⟩,
        fun _ h => absurd hfallen h⟩
    · have hu : u = _ := congrArg (Option.getD · (t.freeContext k)) (State.claimAssign_stale (s := t) k henrolled hfallen)
      clear_value u
      subst hu
      refine ⟨_, hexec rfl rfl, rfl, rfl, rfl, rfl, fun _ _ => rfl, fun j hj => ?_,
        fun h => absurd h (not_or.mpr ⟨henrolled, hfallen⟩), fun h => absurd h henrolled, fun h => absurd h hfallen,
        fun _ _ => ⟨rfl, State.context_freeContext_same t k, rfl⟩⟩
      exact (State.context_freeContext_other t fun e => hj (congrArg some e)).trans (hother t rfl j hj)

/-! ## NOTICE_OUTSTANDING -/

namespace State

/-- Join failed and join timeout (R31), as one equation. -/
theorem endJoin_eq (s : State) (c : Channel) (event : EventKind) : s.endJoin c event = { s with
    cm := Assoc.put s.cm c { (s.channel c).moved .enrolled .pass .pass .none with slot := none, context := none, lag := 0 }
    cp := ⟨s.contextsWithout c, s.cp.queue ++ [c]⟩
    sn := { s.sn with
      slots := s.slotsWithout c
      queue := s.queueWithout .join c
      outstanding := s.outstandingWithout .join c }
    du := s.du.raised event c } := by
  unfold endJoin
  rw [raise_eq, modChannel_releaseSlotOf_withdrawn]
  rfl

theorem claimJoinFailed_eq {s : State} {c : Channel} (h : (s.channel c).phase = .joining) :
    s.claimJoinFailed c = some (s.endJoin c .joinFailed) := if_pos h

theorem claimJoinFailed_stale {s : State} {c : Channel} (h : (s.channel c).phase ≠ .joining) :
    s.claimJoinFailed c = none := if_neg h

theorem claimSlotReserved_eq {s : State} {c : Channel} (n : SlotNo) (h : (s.channel c).phase = .joining) :
    s.claimSlotReserved c n = some { s with
      cm := Assoc.put s.cm c { s.channel c with slot := some n }
      sn := { s.sn with slots := Assoc.put s.sn.slots n ((s.slot n).given .reserved c) } } := by
  unfold claimSlotReserved
  rw [if_pos h]
  rfl

theorem claimSlotReserved_stale {s : State} {c : Channel} (n : SlotNo) (h : (s.channel c).phase ≠ .joining) :
    s.claimSlotReserved c n = none := if_neg h

/-! What one head of the notice queue comes to (R91). -/

theorem placeHead_join {s : State} {c : Channel} {n : SlotNo} (hphase : (s.channel c).phase = .joining)
    (hslot : s.lowestFreeSlot = some n) : s.placeHead ⟨.join, c⟩ = State.place { s with
      cm := Assoc.put s.cm c { s.channel c with slot := some n }
      sn := { s.sn with slots := Assoc.put s.sn.slots n ((s.slot n).given .reserved c) } } ⟨.join, c⟩ n := by
  unfold placeHead
  dsimp only
  rw [hslot]
  dsimp only
  rw [claimSlotReserved_eq n hphase]

theorem placeHead_join_stale {s : State} {c : Channel} (hphase : (s.channel c).phase ≠ .joining) :
    s.placeHead ⟨.join, c⟩ = s := by
  unfold placeHead
  dsimp only
  cases s.lowestFreeSlot with
  | none => dsimp only; rw [claimJoinFailed_stale hphase]; rfl
  | some n => dsimp only; rw [claimSlotReserved_stale n hphase]

theorem placeHead_join_fails {s : State} {c : Channel} (hphase : (s.channel c).phase = .joining)
    (hslot : s.lowestFreeSlot = none) : s.placeHead ⟨.join, c⟩ = s.endJoin c .joinFailed := by
  unfold placeHead
  dsimp only
  rw [hslot]
  dsimp only
  rw [claimJoinFailed_eq hphase]
  rfl

theorem placeHead_cut {s : State} {c : Channel} {n : SlotNo} (hslot : (s.channel c).slot = some n) :
    s.placeHead ⟨.cut, c⟩ = s.place ⟨.cut, c⟩ n := by
  unfold placeHead
  dsimp only
  rw [hslot]

theorem placeHead_leave {s : State} {c : Channel} {n : SlotNo} (hslot : (s.channel c).slot = some n) :
    s.placeHead ⟨.leave, c⟩ = (s.modSlot n SlotEntry.releasing).place ⟨.leave, c⟩ n := by
  unfold placeHead
  dsimp only
  rw [hslot]

theorem placeHead_of_no_slot {s : State} {c : Channel} {k : NoticeKind} (hk : k ≠ .join)
    (hslot : (s.channel c).slot = none) : s.placeHead ⟨k, c⟩ = s := by
  unfold placeHead
  cases k with
  | join => exact absurd rfl hk
  | cut => dsimp only; rw [hslot]
  | leave => dsimp only; rw [hslot]

/-- A head adds nothing to the queue. -/
theorem placeHead_queue_length_le (s : State) (r : Request) :
    (s.placeHead r).sn.queue.length ≤ s.sn.queue.length := by
  obtain ⟨k, c⟩ := r
  cases k with
  | join =>
    by_cases hphase : (s.channel c).phase = .joining
    · cases hslot : s.lowestFreeSlot with
      | none =>
        rw [placeHead_join_fails hphase hslot, endJoin_eq]
        exact List.length_filter_le _ _
      | some n => rw [placeHead_join hphase hslot]; exact Nat.le_refl _
    · exact Nat.le_of_eq (by rw [placeHead_join_stale hphase])
  | cut =>
    cases hslot : (s.channel c).slot with
    | none => exact Nat.le_of_eq (by rw [placeHead_of_no_slot (by decide) hslot])
    | some n => rw [placeHead_cut hslot]; exact Nat.le_refl _
  | leave =>
    cases hslot : (s.channel c).slot with
    | none => exact Nat.le_of_eq (by rw [placeHead_of_no_slot (by decide) hslot])
    | some n => rw [placeHead_leave hslot]; exact Nat.le_refl _

theorem placeUpTo_of_outstanding (n : Nat) {s : State} (h : s.sn.outstanding ≠ none) : State.placeUpTo n s = s := by
  cases n with
  | zero => rfl
  | succ n =>
    unfold placeUpTo
    rw [if_pos (Option.isSome_iff_ne_none.mpr h)]

theorem placeUpTo_of_empty (n : Nat) {s : State} (h : s.sn.queue = []) : State.placeUpTo n s = s := by
  cases n with
  | zero => rfl
  | succ n =>
    unfold placeUpTo
    split
    · rfl
    · rw [h]

theorem placeUpTo_cons (n : Nat) {s : State} {r : Request} {rest : List Request} (hnone : s.sn.outstanding = none)
    (h : s.sn.queue = r :: rest) :
    State.placeUpTo (n + 1) s = State.placeUpTo n (State.placeHead { s with sn := { s.sn with queue := rest } } r) := by
  conv => lhs; unfold placeUpTo
  rw [hnone, h]
  rfl

/-- Any bound that the length of the queue does not pass takes the same heads. -/
theorem placeUpTo_eq {n : Nat} : ∀ {m : Nat} {s : State}, s.sn.queue.length ≤ n → s.sn.queue.length ≤ m →
    State.placeUpTo n s = State.placeUpTo m s := by
  induction n with
  | zero =>
    intro m s hn hm
    have hempty := List.eq_nil_of_length_eq_zero (Nat.le_zero.mp hn)
    rw [placeUpTo_of_empty _ hempty, placeUpTo_of_empty _ hempty]
  | succ n ih =>
    intro m s hn hm
    cases houtstanding : s.sn.outstanding with
    | some o =>
      have hsome : s.sn.outstanding ≠ none := by rw [houtstanding]; nofun
      rw [placeUpTo_of_outstanding _ hsome, placeUpTo_of_outstanding _ hsome]
    | none =>
      cases hqueue : s.sn.queue with
      | nil => rw [placeUpTo_of_empty _ hqueue, placeUpTo_of_empty _ hqueue]
      | cons r rest =>
        rw [hqueue] at hn hm
        obtain ⟨m, rfl⟩ : ∃ k, m = k + 1 := ⟨m - 1, by rw [List.length_cons] at hm; omega⟩
        have hlength := placeHead_queue_length_le { s with sn := { s.sn with queue := rest } } r
        rw [placeUpTo_cons n houtstanding hqueue, placeUpTo_cons m houtstanding hqueue]
        exact ih (Nat.le_trans hlength (Nat.le_of_succ_le_succ hn)) (Nat.le_trans hlength (Nat.le_of_succ_le_succ hm))

theorem makeOutstanding_cons {s : State} {r : Request} {rest : List Request} (hnone : s.sn.outstanding = none)
    (h : s.sn.queue = r :: rest) : s.makeOutstanding =
      State.makeOutstanding (State.placeHead { s with sn := { s.sn with queue := rest } } r) := by
  unfold makeOutstanding
  rw [h, List.length_cons, placeUpTo_cons _ hnone h]
  exact placeUpTo_eq (placeHead_queue_length_le _ r) (Nat.le_refl _)

theorem makeOutstanding_of_outstanding {s : State} (h : s.sn.outstanding ≠ none) : s.makeOutstanding = s :=
  placeUpTo_of_outstanding _ h

theorem exec_noticeOutstanding {s : State} (h : .noticeOutstanding ∈ s.due) :
    exec .noticeOutstanding s = .next (State.makeOutstanding { s with due := s.due.erase .noticeOutstanding }) := by
  rw [exec_ownStep rfl, own_of_mem h]
  rfl

/-- NOTICE_OUTSTANDING with none outstanding takes the head. -/
theorem exec_noticeOutstanding_cons {s : State} {r : Request} {rest : List Request} (h : .noticeOutstanding ∈ s.due)
    (hnone : s.sn.outstanding = none) (hqueue : s.sn.queue = r :: rest) : exec .noticeOutstanding s = .next
      (State.makeOutstanding (State.placeHead { s with
        sn := { s.sn with queue := rest }
        due := s.due.erase .noticeOutstanding } r)) := by
  rw [exec_noticeOutstanding h, makeOutstanding_cons (s := { s with due := s.due.erase .noticeOutstanding }) hnone hqueue]

end State

theorem queue_of_head {q : List Request} {r : Request} (h : q.head? = some r) : q = r :: q.drop 1 := by
  cases q with
  | nil => cases h
  | cons x rest => cases h; rfl

/-- Settles O39: the head by its kind (`placeHead_join`, `placeHead_cut`, `placeHead_leave`, `placeHead_join_fails`). -/
theorem noticeOutstandingTakesTheHeadRequest : Obligations.NoticeOutstandingTakesTheHeadRequest := by
  intro s hdue rest placed
  let v : State := { s with sn := { s.sn with queue := rest }, due := s.due.erase .noticeOutstanding }
  have hexec {r : Request} (hnone : s.sn.outstanding = none) (hhead : s.sn.queue.head? = some r) :
      exec .noticeOutstanding s = .next (State.makeOutstanding (v.placeHead r)) :=
    State.exec_noticeOutstanding_cons hdue hnone (queue_of_head hhead)
  refine ⟨fun h => ?_, fun c n l hnone hhead hphase hlabel hfree hbelow => ?_, fun c n hnone hhead hslot => ?_,
    fun c n hnone hhead hslot => ?_, fun c hnone hhead hphase hfull => ?_⟩
  · rw [State.exec_noticeOutstanding hdue]
    obtain h | h := h
    · exact congrArg Host.Outcome.next (State.makeOutstanding_of_outstanding h)
    · exact congrArg Host.Outcome.next (State.placeUpTo_of_empty _ h)
  · let w : State := { v with
      cm := Assoc.put s.cm c { s.channel c with slot := some n }
      sn := { v.sn with slots := Assoc.put s.sn.slots n ((s.slot n).given .reserved c) } }
    have hplace : exec .noticeOutstanding s = .next (w.place ⟨.join, c⟩ n) := by
      rw [hexec hnone hhead, State.placeHead_join (s := v) hphase (State.lowestFreeSlot_eq_some hfree hbelow),
        State.makeOutstanding_of_outstanding (Option.some_ne_none _)]
      rfl
    have hlabelled : w.labelOf c = l := by
      unfold State.labelOf
      rw [show w.channel c = { s.channel c with slot := some n } from State.channel_put (s := s) rfl]
      exact (congrArg (Option.getD · _) hlabel :)
    have houtstanding : (w.place ⟨.join, c⟩ n).sn.outstanding = some {
        kind := .join, number := s.sn.nextNumber, channel := c, slot := n, label := w.labelOf c, countdown := 0,
        age := 0, firstSent := none, expired := false } := rfl
    rw [hlabelled] at houtstanding
    exact ⟨_, ⟨hplace, rfl, rfl, rfl, rfl, rfl, rfl, houtstanding⟩, State.channel_put (s := s) rfl,
      State.keepsOtherChannels_put rfl, State.slot_put (s := s) rfl, State.keepsOtherSlots_put rfl⟩
  · have hplace : exec .noticeOutstanding s = .next (v.place ⟨.cut, c⟩ n) := by
      rw [hexec hnone hhead, State.placeHead_cut (s := v) hslot, State.makeOutstanding_of_outstanding (Option.some_ne_none _)]
    exact ⟨_, ⟨hplace, rfl, rfl, rfl, rfl, rfl, rfl, rfl⟩, rfl, rfl⟩
  · have hplace : exec .noticeOutstanding s = .next ((v.modSlot n SlotEntry.releasing).place ⟨.leave, c⟩ n) := by
      rw [hexec hnone hhead, State.placeHead_leave (s := v) hslot, State.makeOutstanding_of_outstanding (Option.some_ne_none _)]
    exact ⟨_, ⟨hplace, rfl, rfl, rfl, rfl, rfl, rfl, rfl⟩, rfl, State.keepsOtherSlots_put (s := s) rfl,
      State.slot_put (s := s) rfl⟩
  · let w : State := { s with sn := { s.sn with queue := rest } }
    have hfails : exec .noticeOutstanding s = .next (State.makeOutstanding (v.endJoin c .joinFailed)) := by
      rw [hexec hnone hhead, State.placeHead_join_fails (s := v) hphase (State.lowestFreeSlot_eq_none hfull)]
    have hu : (w.endJoin c .joinFailed).due = s.due := by rw [State.endJoin_eq]
    have hsame : exec .noticeOutstanding (w.endJoin c .joinFailed) =
        .next (State.makeOutstanding (v.endJoin c .joinFailed)) := by
      rw [State.exec_noticeOutstanding (hu ▸ hdue), State.endJoin_eq, State.endJoin_eq]
      rfl
    have houtstanding : w.outstandingWithout .join c = none := by
      unfold State.outstandingWithout
      rw [show w.sn.outstanding = none from hnone]
    obtain ⟨hrecord, hothers, hcontext, hslot, hproof, hqueue, hout, hschedules, hdu, hframe, -⟩ :=
      State.endJoin_spec w c .joinFailed
    exact ⟨_, hfails.trans hsame.symm, hu, hframe, hout.trans houtstanding, hschedules, hqueue, hrecord, hothers,
      hcontext, hslot, hproof, hdu⟩

/-! ## The ends of a JOIN, the retry gap and the bar clock -/

/-- An own step that is due is taken on the state without it. -/
theorem exec_due {i : Instr} {d : Due} {s : State} (h : ownStep i = some d) (hdue : d ∈ s.due) :
    exec i s = .next (effect d { s with due := s.due.erase d }) := by
  rw [exec_ownStep h, own_of_mem hdue]

namespace State

theorem takeJoinFailed_eq {s : State} {c : Channel} (h : (s.channel c).phase = .joining) :
    s.takeJoinFailed c = s.endJoin c .joinFailed := by
  unfold takeJoinFailed
  rw [claimJoinFailed_eq h]
  rfl

theorem takeJoinFailed_stale {s : State} {c : Channel} (h : (s.channel c).phase ≠ .joining) :
    s.takeJoinFailed c = s := by
  unfold takeJoinFailed
  rw [claimJoinFailed_stale h]
  rfl

theorem joinClockOver_iff (s : State) (k : CtxNo) :
    s.joinClockOver k = true ↔ ∃ x, s.context k = some x ∧ s.sc.params.joinWait ≤ x.joinClock := by
  unfold joinClockOver
  cases s.context k <;> simp

theorem takeJoinTimeout_eq {s : State} {c : Channel} {k : CtxNo} (hphase : (s.channel c).phase = .joining)
    (hcontext : (s.channel c).context = some k) (hclock : s.joinClockOver k = true) :
    s.takeJoinTimeout c k = s.endJoin c .joinTimeout := by
  unfold takeJoinTimeout claimJoinTimeout
  rw [if_pos hclock, if_pos ⟨hphase, hcontext⟩]
  rfl

theorem takeJoinTimeout_stale {s : State} {c : Channel} {k : CtxNo}
    (h : ¬ ((s.channel c).phase = .joining ∧ (s.channel c).context = some k ∧ s.joinClockOver k = true)) :
    s.takeJoinTimeout c k = s := by
  unfold takeJoinTimeout claimJoinTimeout
  by_cases hclock : s.joinClockOver k = true
  · rw [if_pos hclock, if_neg fun ⟨hphase, hcontext⟩ => h ⟨hphase, hcontext, hclock⟩]
    rfl
  · rw [if_neg hclock]

theorem requested_eq_false_iff (s : State) (k : NoticeKind) (c : Channel) :
    s.requested k c = false ↔ ⟨k, c⟩ ∉ s.requests := by
  unfold requested isOutstanding requests
  cases s.sn.outstanding with
  | none => simp
  | some o =>
    have heq : (⟨k, c⟩ : Request) = ⟨o.kind, o.channel⟩ ↔ o.kind = k ∧ o.channel = c := by
      rw [Request.mk.injEq, eq_comm, eq_comm (a := c)]
    simp [heq, and_comm]

end State

/-- Settles O40: both claims end the JOIN in the same way (`endJoin_spec`). -/
theorem joinEndsBackInTheProofQueue : Obligations.JoinEndsBackInTheProofQueue := by
  intro i d c event s hi hdue r timedOut valid
  rw [exec_due hi hdue]
  refine ⟨fun hvalid hphase => ?_, fun hstale => ?_⟩
  · have hends : effect d { s with due := s.due.erase d } = State.endJoin { s with due := s.due.erase d } c event := by
      obtain ⟨rfl, rfl⟩ | ⟨k, rfl, rfl, hcontext, hclock⟩ := hvalid
      · exact State.takeJoinFailed_eq (s := { s with due := _ }) hphase
      · exact State.takeJoinTimeout_eq (s := { s with due := _ }) hphase hcontext ((State.joinClockOver_iff s k).mpr hclock)
    exact ⟨_, congrArg _ hends, State.endJoin_spec { s with due := s.due.erase d } c event⟩
  · obtain ⟨rfl, hphase⟩ | ⟨k, rfl, hnot⟩ := hstale
    · exact congrArg _ (State.takeJoinFailed_stale (s := { s with due := _ }) hphase)
    · exact congrArg _ (State.takeJoinTimeout_stale (s := { s with due := _ }) fun ⟨hphase, hcontext, hclock⟩ =>
        hnot ⟨hphase, hcontext, (State.joinClockOver_iff s k).mp hclock⟩)

/-- Settles O41. -/
theorem gapAppendsJoinAndBarClockFreesSlot : Obligations.GapAppendsJoinAndBarClockFreesSlot := by
  refine ⟨fun c k s hdue => ?_, fun n s hdue hstate hclock => ?_, fun n s hdue hnot => ?_⟩
  · rw [exec_due rfl hdue]
    show Host.Outcome.next (if _ then _ else _) = _
    by_cases h : (s.channel c).phase = .joining ∧ (s.channel c).context = some k ∧ s.cl.role = some .lead ∧
        ⟨.join, c⟩ ∉ s.requests
    · rw [if_pos h, if_pos (by rwa [← State.requested_eq_false_iff] at h)]
      rfl
    · rw [if_neg h, if_neg (by rwa [← State.requested_eq_false_iff] at h)]
  · rw [exec_due rfl hdue]
    refine ⟨_, congrArg Host.Outcome.next (if_pos (⟨hstate, hclock⟩ :
      (State.slot { s with due := _ } n).state = .barred ∧ _)), State.slot_put (s := s) rfl,
      State.keepsOtherSlots_put rfl, rfl, rfl⟩
  · rw [exec_due rfl hdue]
    exact congrArg Host.Outcome.next (if_neg fun ⟨hstate, hclock⟩ =>
      hnot.elim (fun h => h hstate) fun h => h hclock)

end Machine
end Sys2Proof
end

section
/-! SUPPORT. The own steps of the proof, the traffic tests and the link monitor (R32, R57, R58, R77 to R81, R105, R106),
and the statements that they settle. -/

namespace Sys2Proof.Machine

namespace State

/-! ## Contexts by number -/

/-- The contexts once one of them is changed. -/
def contextsModified (s : State) (k : CtxNo) (f : Context → Context) : Assoc CtxNo Context :=
  match s.context k with
  | none => s.cp.contexts
  | some x => Assoc.put s.cp.contexts k (f x)

theorem modContext_eq (s : State) (k : CtxNo) (f : Context → Context) :
    s.modContext k f = { s with cp := { s.cp with contexts := s.contextsModified k f } } := by
  unfold modContext contextsModified
  cases s.context k <;> rfl

theorem context_contextsModified_same {s : State} {k : CtxNo} {x : Context} (f : Context → Context)
    (h : s.context k = some x) : Assoc.find (s.contextsModified k f) k = some (f x) := by
  unfold contextsModified
  rw [h]
  exact Assoc.find_put_same _ _ _

theorem keepsOtherContexts_contextsModified {s t : State} {k : CtxNo} {f : Context → Context}
    (h : t.cp.contexts = s.contextsModified k f) : keepsOtherContexts (some k) s t := by
  intro j hj
  unfold context
  rw [h]
  unfold contextsModified
  cases s.context k with
  | none => rfl
  | some x => exact Assoc.find_put_other _ _ fun e => hj (congrArg some e)

/-! ## Proof claims -/

theorem claimFrame_raised (u : State) (k : EventKind) (c : Channel) :
    State.claimFrame { u with du := u.du.raised k c } = u.claimFrame := by
  rw [← raise_eq, claimFrame_raise]

theorem takeProofSuccess_eq {s : State} {c : Channel} {k : CtxNo} (lag : Lag)
    (h : (s.channel c).phase = .shadow ∧ (s.channel c).context = some k) : s.takeProofSuccess c k lag = { s with
      cm := Assoc.put s.cm c { (s.channel c).moved .proven .pass .pass .shadow with lag := lag }
      cp := { s.cp with contexts := s.contextsModified k fun x => { x with streak := 0 } }
      du := s.du.raised .proven c } := by
  unfold takeProofSuccess claimProofSuccess
  rw [if_pos h, raise_eq, modContext_eq]
  rfl

theorem takeProofSuccess_stale {s : State} {c : Channel} {k : CtxNo} (lag : Lag)
    (h : ¬ ((s.channel c).phase = .shadow ∧ (s.channel c).context = some k)) : s.takeProofSuccess c k lag = s := by
  unfold takeProofSuccess claimProofSuccess
  rw [if_neg h]
  rfl

theorem claimProofFailure_isSome {s : State} {c : Channel} {k : CtxNo}
    (h : (s.channel c).phase = .shadow ∧ (s.channel c).context = some k) :
    s.claimProofFailure c k = some (s.takeProofFailure c k) := by
  unfold takeProofFailure claimProofFailure
  rw [if_pos h]
  rfl

theorem takeProofFailure_stale {s : State} {c : Channel} {k : CtxNo}
    (h : ¬ ((s.channel c).phase = .shadow ∧ (s.channel c).context = some k)) : s.takeProofFailure c k = s := by
  unfold takeProofFailure claimProofFailure
  rw [if_neg h]
  rfl

end State

/-- Settles O47: the claims of `takeProofSuccess_eq` and `claimProofFailure_spec`. -/
theorem proofEndsInProvenOrBackInTheQueue : Obligations.ProofEndsInProvenOrBackInTheQueue := by
  intro c k lag s r valid
  refine ⟨fun d i hd hi hdue hnot => ?_, fun hdue hvalid => ?_, fun hdue hvalid => ?_⟩
  · rw [exec_due hi hdue]
    obtain rfl | rfl := hd
    · exact congrArg _ (State.takeProofSuccess_stale (s := { s with due := _ }) lag hnot)
    · exact congrArg _ (State.takeProofFailure_stale (s := { s with due := _ }) hnot)
  · rw [exec_due rfl hdue]
    refine ⟨_, congrArg _ (State.takeProofSuccess_eq (s := { s with due := _ }) lag hvalid), ?_⟩
    refine ⟨State.channel_put (s := s) rfl, State.keepsOtherChannels_put rfl, fun x hx => ?_,
      State.keepsOtherContexts_contextsModified (s := s) (f := fun x => { x with streak := 0 }) rfl, rfl, rfl, rfl,
      State.claimFrame_raised _ _ _, rfl⟩
    exact State.context_contextsModified_same (s := s) _ hx
  · rw [exec_due rfl hdue]
    obtain ⟨-, -, hspec⟩ := State.claimProofFailure_spec
      (State.claimProofFailure_isSome (s := { s with due := s.due.erase (.proofFailure c k) }) hvalid)
    exact ⟨_, rfl, hspec⟩

/-! ## The link monitor -/

namespace State

theorem exec_frameArrival_valid {bytes : List Byte} {f : ReceivedFrame} {s : State} (h : s.steady)
    (hread : readFrame bytes = some f) : exec (.frameArrival bytes) s = .next
      (let t : State := { s with cl := { s.cl with peerRole := some f.role } }
      if s.cl.role = some f.role then t.takeClash else t.takeValid f) := by
  obtain ⟨hpart, hreset, hdue⟩ := h
  rw [exec_frameArrival_of_due_nil bytes hdue, if_pos ⟨hpart, hreset⟩]
  unfold takeArrival
  rw [hread]

theorem takeClash_eq (s : State) : s.takeClash = { s with
    cl := if s.cl.link = .hunting then { s.cl with clash := true, huntCount := 0, lastNumber := none }
      else { s.cl with clash := true }
    du := if s.cl.clash = true then s.du else s.du.raised .roleClash 0 } := by
  unfold takeClash
  simp only [raise_eq]
  by_cases hclash : s.cl.clash = true <;> by_cases hlink : s.cl.link = .hunting <;> simp [hclash, hlink]

end State

/-- The run of numbers in HUNTING once a frame comes (R78). -/
def huntAfter (x : CarrierLink) (number : BitVec 12) : Nat :=
  if x.lastNumber = some (number - 1) then x.huntCount + 1 else 1

theorem huntAfter_eq (x : CarrierLink) (number : BitVec 12) :
    (if x.lastNumber.map (· + 1) = some number then x.huntCount + 1 else 1) = huntAfter x number := by
  have hiff : x.lastNumber.map (· + 1) = some number ↔ x.lastNumber = some (number - 1) := by
    cases x.lastNumber with
    | none => simp
    | some n =>
      rw [Option.map_some, Option.some.injEq, Option.some.injEq]
      constructor <;> intro h <;> bv_omega
  unfold huntAfter
  simp only [hiff]

theorem takeValid_hunting {s : State} (f : ReceivedFrame) (h : s.cl.link = .hunting) : s.takeValid f =
    let heard : CarrierLink := { s.cl with
      clash := false
      lastNumber := some f.number
      huntCount := huntAfter s.cl f.number }
    if 3 ≤ huntAfter s.cl f.number then { s with cl := { heard with inHand := some f }, due := s.due ++ [.linkUp] }
    else { s with cl := heard } := by
  unfold State.takeValid
  rw [h]
  dsimp only
  rw [huntAfter_eq]
  rfl

theorem takeValid_up {s : State} (f : ReceivedFrame) (h : s.cl.link = .up) : s.takeValid f =
    State.useFrame { s with cl := { s.cl with clash := false, lastNumber := some f.number } } f := by
  unfold State.takeValid
  rw [h]

theorem takeValid_dark {s : State} (f : ReceivedFrame) (h : s.cl.link = .dark) : s.takeValid f =
    { s with cl := { s.cl with
      clash := false, lastNumber := some f.number, link := .hunting, huntCount := 1, lossCount := 0 } } := by
  unfold State.takeValid
  rw [h]

/-- Settles O51: the cases of `takeArrival` by the role and the link, and the two own steps. -/
theorem linkMonitorFollowsTheFrames : Obligations.LinkMonitorFollowsTheFrames := by
  refine ⟨?_, fun f s hdue hlink hhand => ?_, fun s hdue => ⟨fun hlink hcount => ?_, fun hnot => ?_⟩⟩
  · intro bytes f r s hsteady hread hrole heard hunt
    let v : State := { s with cl := { s.cl with peerRole := some f.role } }
    have hvalid (h : f.role ≠ r) : exec (.frameArrival bytes) s = .next (v.takeValid f) := by
      rw [State.exec_frameArrival_valid hsteady hread]
      exact congrArg Host.Outcome.next (if_neg fun e => h (Option.some.inj (e.symm.trans hrole)))
    refine ⟨fun h => ?_, fun h hlink => ?_, fun h hlink hhunt => ?_, fun h hlink hhunt => ?_, fun h hlink => ?_⟩
    · rw [State.exec_frameArrival_valid hsteady hread]
      refine congrArg Host.Outcome.next ((if_pos (by rw [hrole, h])).trans ?_)
      rw [State.takeClash_eq]
    · rw [hvalid h]
      exact congrArg Host.Outcome.next (takeValid_dark (s := v) f hlink)
    · rw [hvalid h]
      exact congrArg Host.Outcome.next ((takeValid_hunting (s := v) f hlink).trans (if_neg (Nat.not_le_of_lt hhunt)))
    · rw [hvalid h]
      refine congrArg Host.Outcome.next (((takeValid_hunting (s := v) f hlink).trans (if_pos hhunt)).trans ?_)
      show { v with cl := _, due := s.due ++ [Due.linkUp] } = _
      rw [hsteady.2.2]
      rfl
    · rw [hvalid h]
      exact congrArg Host.Outcome.next (takeValid_up (s := v) f hlink)
  · rw [exec_due rfl hdue]
    show Host.Outcome.next (State.takeLinkUp _) = _
    unfold State.takeLinkUp
    dsimp only
    rw [hlink, hhand]
    dsimp only
    rw [raise_eq]
  · rw [exec_due rfl hdue]
    exact congrArg Host.Outcome.next (if_pos ⟨hlink, hcount⟩)
  · rw [exec_due rfl hdue]
    exact congrArg Host.Outcome.next (if_neg fun ⟨hlink, hcount⟩ => hnot.elim (fun h => h hlink) (Nat.not_lt_of_le hcount))

end Sys2Proof.Machine
end

section
/-! SUPPORT. The tests of the traffic and the idle substitution (R39, R42, R105, R106, R117), and the statements that they
settle. -/

namespace Sys2Proof.Machine

namespace State

/-! ## ORPHAN_TEST, PEER_SHADOW and the heard claims -/

/-- What an orphan test asks of the link and of the slot (R106). -/
def orphanHolds (s : State) (n : SlotNo) : Prop :=
  s.cl.link = .up ∧ (s.slot n).state = .held ∧ s.sc.params.orphanFrames ≤ (s.slot n).orphanCount

theorem takeOrphanTest_holds {s : State} {n : SlotNo} {c : Channel} (hchannel : (s.slot n).channel = some c)
    (h : s.orphanHolds n) : s.takeOrphanTest n =
      if (s.channel c).phase.inGroup = true then (s.claimGone c n .orphaned).getD s else (s.claimSilence c n).getD s := by
  obtain ⟨hlink, hstate, hcount⟩ := h
  unfold takeOrphanTest
  dsimp only
  rw [hchannel]
  exact if_pos ⟨(linkIsUp_iff s).mpr hlink, hstate, hcount⟩

theorem claimGone_isSome {s : State} {c : Channel} {n : SlotNo} (event : EventKind)
    (h : (s.channel c).phase.inGroup = true ∧ (s.channel c).slot = some n) : ∃ u, s.claimGone c n event = some u :=
  ⟨_, if_pos h⟩

theorem claimGone_stale {s : State} {c : Channel} {n : SlotNo} (event : EventKind)
    (h : ¬ ((s.channel c).phase.inGroup = true ∧ (s.channel c).slot = some n)) : s.claimGone c n event = none :=
  if_neg h

theorem claimSilence_eq {s : State} {c : Channel} {n : SlotNo}
    (h : (s.channel c).phase = .retired ∧ (s.channel c).slot = some n) : s.claimSilence c n = some { s with
      cm := Assoc.put s.cm c { (s.channel c).moved .stranded .idle .idle .live with cause := some .silence }
      du := s.du.raised .stranded c } := by
  unfold claimSilence
  rw [if_pos h, raise_eq]
  rfl

theorem claimSilence_stale {s : State} {c : Channel} {n : SlotNo}
    (h : ¬ ((s.channel c).phase = .retired ∧ (s.channel c).slot = some n)) : s.claimSilence c n = none := if_neg h

/-- An orphan test whose condition or whose claim fails changes nothing. -/
theorem takeOrphanTest_stale {s : State} {n : SlotNo} {c : Channel} (hchannel : (s.slot n).channel = some c)
    (h : ¬ s.orphanHolds n ∨ (s.channel c).phase.inGroup = false ∧ (s.channel c).phase ≠ .retired ∨
      (s.channel c).slot ≠ some n) : s.takeOrphanTest n = s := by
  by_cases hholds : s.orphanHolds n
  · have hgone (hg : (s.channel c).phase.inGroup = true) : s.claimGone c n .orphaned = none :=
      claimGone_stale _ fun ⟨_, hslot⟩ => h.elim (fun h => h hholds) fun h =>
        h.elim (fun ⟨h, _⟩ => absurd hg (h ▸ Bool.false_ne_true)) fun h => h hslot
    have hsilence : s.claimSilence c n = none :=
      claimSilence_stale fun ⟨hphase, hslot⟩ => h.elim (fun h => h hholds) fun h =>
        h.elim (fun ⟨_, h⟩ => h hphase) fun h => h hslot
    rw [takeOrphanTest_holds hchannel hholds, hsilence]
    split
    next hg => rw [hgone hg]; rfl
    next => rfl
  · unfold takeOrphanTest
    dsimp only
    rw [hchannel]
    exact if_neg fun ⟨hlink, hstate, hcount⟩ => hholds ⟨(linkIsUp_iff s).mp hlink, hstate, hcount⟩

theorem peerShadowHolds_iff (s : State) (n : SlotNo) (p : Phase) : s.peerShadowHolds n p = true ↔
    (s.slot n).state = .held ∧ p = .carried ∧ 8 ≤ (s.slot n).shadowRun ∧ (s.slot n).peerShadow = false := by
  unfold peerShadowHolds Config.runLimit
  simp [and_assoc]

theorem takePeerShadow_eq {s : State} {n : SlotNo} {c : Channel} (hchannel : (s.slot n).channel = some c)
    (h : s.peerShadowHolds n (s.channel c).phase = true) : s.takePeerShadow n = { s with
      sn := { s.sn with slots := Assoc.put s.sn.slots n { s.slot n with peerShadow := true } }
      du := s.du.raised .peerShadow c } := by
  unfold takePeerShadow
  rw [hchannel]
  dsimp only
  rw [if_pos h, raise_eq]
  rfl

theorem takePeerShadow_stale {s : State} {n : SlotNo} {c : Channel} (hchannel : (s.slot n).channel = some c)
    (h : ¬ s.peerShadowHolds n (s.channel c).phase = true) : s.takePeerShadow n = s := by
  unfold takePeerShadow
  rw [hchannel]
  exact if_neg h

/-- The heard claim (R39). -/
theorem hear_eq {s : State} {n : SlotNo} {c : Channel} (hchannel : (s.slot n).channel = some c)
    (h : (s.channel c).phase = .stranded ∧ (s.channel c).slot = some n) : s.hear n = { s with
      cm := Assoc.put s.cm c { (s.channel c).moved .retired .fibre .idle .live with cause := none }
      du := if (s.channel c).cause = some .silence then s.du.raised .unstranded c else s.du } := by
  unfold hear
  rw [hchannel]
  dsimp only
  unfold claimHeard
  rw [if_pos h]
  dsimp only
  by_cases hcause : (s.channel c).cause = some .silence
  · rw [if_pos hcause, if_pos hcause, raise_eq]; rfl
  · rw [if_neg hcause, if_neg hcause]; rfl

theorem hear_stale {s : State} {n : SlotNo}
    (h : ∀ c, (s.slot n).channel = some c → ¬ ((s.channel c).phase = .stranded ∧ (s.channel c).slot = some n)) :
    s.hear n = s := by
  unfold hear
  cases hchannel : (s.slot n).channel with
  | none => rfl
  | some c =>
    dsimp only
    unfold claimHeard
    rw [if_neg (h c hchannel)]
    rfl

end State

/-- Settles O46: the tests by `takeOrphanTest_holds` and `takePeerShadow_eq`, the heard claims by `hear_eq`. -/
theorem orphanTestAndPeerShadowActByThePhase : Obligations.OrphanTestAndPeerShadowActByThePhase := by
  refine ⟨fun n c s hchannel => ?_, fun s h => takeHeard_of_head h, fun n rest s hdue => ?_⟩
  · intro e r group holds
    refine ⟨fun hdue hholds hgroup hslot => ?_, fun hdue hholds hphase hslot => ?_, fun hdue hnot => ?_,
      fun hdue hstate hphase hrun hmark => ?_, fun hdue hnot => ?_⟩
    · rw [exec_due rfl hdue]
      let v : State := { s with due := s.due.erase (.orphanTest n) }
      have hin : (v.channel c).phase.inGroup = true := (inGroup_iff _).mpr hgroup
      obtain ⟨u, hu⟩ := State.claimGone_isSome (s := v) .orphaned ⟨hin, hslot⟩
      obtain ⟨-, -, hspec⟩ := State.claimGone_spec hu
      refine ⟨u, congrArg (fun t : State => Host.Outcome.next t.takeHeard) ?_, hspec⟩
      show v.takeOrphanTest n = u
      rw [State.takeOrphanTest_holds (s := v) hchannel hholds, if_pos hin, hu]
      rfl
    · rw [exec_due rfl hdue]
      let v : State := { s with due := s.due.erase (.orphanTest n) }
      have hin : ¬ (v.channel c).phase.inGroup = true := by
        rw [show (v.channel c).phase = .retired from hphase]
        nofun
      refine ⟨_, congrArg (fun t : State => Host.Outcome.next t.takeHeard)
        ((State.takeOrphanTest_holds (s := v) hchannel hholds).trans (if_neg hin)), ?_⟩
      rw [State.claimSilence_eq (s := v) ⟨hphase, hslot⟩]
      exact ⟨State.channel_put (s := s) rfl, State.keepsOtherChannels_put rfl, rfl, rfl, rfl⟩
    · rw [exec_due rfl hdue]
      refine congrArg (fun t : State => Host.Outcome.next t.takeHeard) ?_
      refine State.takeOrphanTest_stale (s := { s with due := _ }) hchannel (hnot.imp id (Or.imp (And.imp ?_ id) id))
      exact fun hnot => Bool.eq_false_iff.mpr fun h => hnot ((inGroup_iff _).mp h)
    · rw [exec_due rfl hdue]
      refine ⟨_, congrArg (fun t : State => Host.Outcome.next t.takeHeard) (State.takePeerShadow_eq
        (s := { s with due := _ }) hchannel ((State.peerShadowHolds_iff _ _ _).mpr ⟨hstate, hphase, hrun, hmark⟩)), ?_⟩
      exact ⟨State.slot_put (s := s) rfl, State.keepsOtherSlots_put (s := s) rfl, rfl, rfl, rfl⟩
    · rw [exec_due rfl hdue]
      refine congrArg (fun t : State => Host.Outcome.next t.takeHeard) (State.takePeerShadow_stale
        (s := { s with due := _ }) hchannel fun h => ?_)
      obtain ⟨hstate, hphase, hrun, hmark⟩ := (State.peerShadowHolds_iff _ _ _).mp h
      obtain h | h | h | h := hnot
      · exact h hstate
      · exact h hphase
      · exact absurd hrun (Nat.not_le_of_lt h)
      · exact absurd (h.symm.trans hmark) nofun
  · intro passed
    refine ⟨fun c hchannel hphase hslot => ?_, fun hnot => ?_⟩
    · intro r
      refine ⟨_, (takeHeard_cons hdue).trans (congrArg State.takeHeard
        (State.hear_eq (s := passed) hchannel ⟨hphase, hslot⟩)), ?_⟩
      exact ⟨State.channel_put (s := s) rfl, State.keepsOtherChannels_put rfl, rfl, rfl⟩
    · rw [takeHeard_cons hdue, State.hear_stale (s := passed)]
      exact fun c hchannel ⟨hphase, hslot⟩ => (hnot c hchannel).elim (fun h => h hphase) fun h => h hslot

/-! ## SLOT_SILENT -/

namespace State

theorem contextOf_of_some {s : State} {c : Channel} {k : CtxNo} (h : (s.channel c).context = some k) :
    s.contextOf c = s.context k := by
  unfold contextOf
  rw [h]
  rfl

theorem contextOf_of_none {s : State} {c : Channel} (h : (s.channel c).context = none) : s.contextOf c = none := by
  unfold contextOf
  rw [h]
  rfl

theorem guardedWord_unguarded {s : State} {c : Channel} (w : Pattern)
    (h : (s.channel c).context = none ∨ (s.channel c).phase ≠ .carried) : s.guardedWord c w = w := by
  unfold guardedWord
  obtain h | h := h
  · rw [contextOf_of_none h]
  · cases s.contextOf c with
    | none => rfl
    | some x => exact if_neg fun ⟨hphase, _⟩ => h hphase

/-- The word of a guarded frame: the supervision of the last copper word, the code of the word (R113). -/
theorem guardedWord_carried {s : State} {c : Channel} {k : CtxNo} {x : Context} {last : Pattern} (w : Pattern)
    (hphase : (s.channel c).phase = .carried) (hk : (s.channel c).context = some k) (hx : s.context k = some x)
    (hlast : x.lastCopper = some last) : s.guardedWord c w =
      if 0 < x.guardRemaining then last.extractLsb' 8 4 ++ w.extractLsb' 0 8 else w := by
  unfold guardedWord heldSupervision
  rw [contextOf_of_some hk, hx]
  dsimp only
  rw [hlast]
  by_cases hguard : 0 < x.guardRemaining
  · rw [if_pos hguard, if_pos ⟨hphase, hguard⟩]; rfl
  · rw [if_neg hguard, if_neg fun ⟨_, h⟩ => hguard h]

theorem takeSlotSilent_eq {s : State} {c : Channel} {y : FibreRegister} {idle : Pattern} (hy : s.register c = some y)
    (hidle : (s.channel c).idle = some idle) (hrepeats : s.sc.params.holdLimit < y.repeats) (hsilent : y.silent = false) :
    s.takeSlotSilent c = { s with
      bi := { s.bi with registers := Assoc.put s.bi.registers c { s.substituteIdle c y idle with silent := true } }
      du := if s.cl.link = .up ∧ s.cl.lossCount < 16 then s.du.raised .slotSilent c else s.du } := by
  unfold takeSlotSilent
  rw [hy]
  dsimp only
  rw [if_pos ⟨hrepeats, hsilent⟩, idleOf_of_some hidle]
  by_cases h : s.cl.link = .up ∧ s.cl.lossCount < 16
  · rw [if_pos h, if_pos ⟨(linkIsUp_iff s).mpr h.1, h.2⟩, raise_eq]; rfl
  · rw [if_neg h, if_neg fun ⟨hlink, hcount⟩ => h ⟨(linkIsUp_iff s).mp hlink, hcount⟩]; rfl

theorem takeSlotSilent_stale {s : State} {c : Channel} {y : FibreRegister} (hy : s.register c = some y)
    (h : y.repeats ≤ s.sc.params.holdLimit ∨ y.silent = true) : s.takeSlotSilent c = s := by
  unfold takeSlotSilent
  rw [hy]
  refine if_neg fun ⟨hrepeats, hsilent⟩ => ?_
  obtain h | h := h
  · exact Nat.not_le_of_lt hrepeats h
  · exact absurd (h.symm.trans hsilent) nofun

theorem register_put {s t : State} {c : Channel} {x : FibreRegister}
    (h : t.bi.registers = Assoc.put s.bi.registers c x) : t.register c = some x := by
  unfold register
  rw [h, Assoc.find_put_same]

theorem register_put_other {s t : State} {c e : Channel} {x : FibreRegister}
    (h : t.bi.registers = Assoc.put s.bi.registers c x) (he : e ≠ c) : t.register e = s.register e := by
  unfold register
  rw [h, Assoc.find_put_other _ _ he]

end State

/-- Settles O44: the register by `takeSlotSilent_eq`, its frame word by the guard. -/
theorem slotSilentSubstitutesTheIdlePattern : Obligations.SlotSilentSubstitutesTheIdlePattern := by
  intro c y idle s hdue hy hidle rest
  rw [exec_due rfl hdue]
  refine ⟨fun hrepeats hsilent => ?_, fun hnot => ?_⟩
  · let z : FibreRegister := { rest.substituteIdle c y idle with silent := true }
    have hz_same (h : y.carriedWord = idle) : z = { y with silent := true } := by
      show { rest.substituteIdle c y idle with silent := true } = _
      unfold State.substituteIdle
      rw [if_pos h]
    have hz_other (h : y.carriedWord ≠ idle) :
        z = { y with carriedWord := idle, frameWord := rest.guardedWord c idle, silent := true } := by
      show { rest.substituteIdle c y idle with silent := true } = _
      unfold State.substituteIdle
      rw [if_neg h]
    refine ⟨_, z, congrArg _ (State.takeSlotSilent_eq (s := rest) hy hidle hrepeats hsilent),
      State.register_put (s := s) rfl, fun e he => State.register_put_other rfl he, ?_, rfl, ?_, fun h => ?_,
      fun h hnone => ?_, fun k x last h hphase hk hx hlast => ?_, rfl, rfl⟩
    · by_cases h : y.carriedWord = idle
      · rw [hz_same h]
      · rw [hz_other h]
    · by_cases h : y.carriedWord = idle
      · rw [hz_same h]; exact h
      · rw [hz_other h]
    · rw [hz_same h]
    · rw [hz_other h]
      exact State.guardedWord_unguarded (s := rest) idle hnone
    · rw [hz_other h]
      exact State.guardedWord_carried (s := rest) idle hphase hk hx hlast
  · exact congrArg _ (State.takeSlotSilent_stale (s := rest) hy hnot)

end Sys2Proof.Machine
end

section
/-! SUPPORT. The fibre word, the collapse and the cut, each as one equation (R111, R113, R116, R119 to R121), and the
statements that they settle. -/

namespace Sys2Proof.Machine

namespace State

/-! ## The fibre word -/

/-- The register of a channel once its word for the frame is chosen (R116). -/
def chosenRegister (s : State) (c : Channel) (x : FibreRegister) : FibreRegister :=
  let y := x.choose (s.sourceWord c) s.sc.params.holdLimit (s.idleOf c)
  { y with frameWord := s.guardedWord c y.carriedWord }

/-- What a choice of word brings due (R117). -/
def silenceDue (s : State) (c : Channel) (y : FibreRegister) : List Due :=
  if s.sc.params.holdLimit < y.repeats ∧ y.silent = false then [.slotSilent c] else []

/-- A choice of word changes the register, the window of a carried channel's context, and what is due. -/
theorem chooseWord_eq {s : State} {c : Channel} {x : FibreRegister} (h : s.register c = some x) :
    s.chooseWord c = { s with
      bi := { s.bi with registers := Assoc.put s.bi.registers c (s.chosenRegister c x) }
      cp := { s.cp with contexts := if (s.channel c).phase = .carried then
          s.contextsChanged c fun k => k.mark (s.chosenRegister c x).carriedWord
        else s.cp.contexts }
      due := s.due ++ s.silenceDue c (s.chosenRegister c x) } := by
  let y := x.choose (s.sourceWord c) s.sc.params.holdLimit (s.idleOf c)
  let t := s.setRegister c (s.chosenRegister c x)
  have hmark : t.modContextOf c (fun k => k.mark y.carriedWord) =
      { t with cp := { s.cp with contexts := s.contextsChanged c fun k => k.mark y.carriedWord } } :=
    modContextOf_eq t c _
  unfold chooseWord
  rw [h]
  show (if s.sc.params.holdLimit < y.repeats ∧ y.silent = false then
    (if (s.channel c).phase = Phase.carried then t.modContextOf c fun k => k.mark y.carriedWord else t).addDue (Due.slotSilent c)
    else if (s.channel c).phase = Phase.carried then t.modContextOf c fun k => k.mark y.carriedWord else t) = _
  rw [hmark]
  unfold silenceDue
  show _ = { s with
    bi := t.bi
    cp := { s.cp with contexts := if (s.channel c).phase = Phase.carried then
        s.contextsChanged c fun k => k.mark y.carriedWord
      else s.cp.contexts }
    due := s.due ++ if s.sc.params.holdLimit < y.repeats ∧ y.silent = false then [Due.slotSilent c] else [] }
  by_cases hdue : s.sc.params.holdLimit < y.repeats ∧ y.silent = false
  · rw [if_pos hdue, if_pos hdue]
    by_cases hphase : (s.channel c).phase = Phase.carried
    · rw [if_pos hphase, if_pos hphase]; rfl
    · rw [if_neg hphase, if_neg hphase]; rfl
  · rw [if_neg hdue, if_neg hdue, List.append_nil]
    by_cases hphase : (s.channel c).phase = Phase.carried
    · rw [if_pos hphase, if_pos hphase]; rfl
    · rw [if_neg hphase, if_neg hphase]; rfl

theorem sourceWord_of_context {s : State} {c : Channel} {k : CtxNo} {x : Context}
    (hk : (s.channel c).context = some k) (hx : s.context k = some x) :
    s.sourceWord c = x.delay.getD (s.channel c).lag.val none := by
  unfold sourceWord
  rw [contextOf_of_some hk, hx]

theorem sourceWord_of_slot {s : State} {c : Channel} {n : SlotNo} (hk : (s.channel c).context = none)
    (hn : (s.channel c).slot = some n) : s.sourceWord c = goodArrival (s.slot n).visible := by
  unfold sourceWord
  rw [contextOf_of_none hk, hn]

theorem guardedWord_guard_over {s : State} {c : Channel} {k : CtxNo} {x : Context} (w : Pattern)
    (hk : (s.channel c).context = some k) (hx : s.context k = some x) (hguard : x.guardRemaining = 0) :
    s.guardedWord c w = w := by
  unfold guardedWord
  rw [contextOf_of_some hk, hx]
  exact if_neg fun ⟨_, h⟩ => absurd hguard (Nat.pos_iff_ne_zero.mp h)

/-! ## The collapse and GUARD_END -/

theorem claimCollapse_eq {s : State} {c : Channel} {k : CtxNo}
    (h : (s.channel c).phase = .carried ∧ (s.channel c).context = some k) : s.claimCollapse c k = some { s with
      cm := Assoc.put s.cm c { (s.channel c).moved .carried .fibre .pass .live with
        active := ⟨.fibre, .pass, .live⟩, context := none, lag := 0, collapsed := true }
      cp := { s.cp with contexts := Assoc.drop s.cp.contexts k }
      du := s.du.raised .collapsed c } := by
  have hcontexts : s.contextsWithout c = Assoc.drop s.cp.contexts k := by
    unfold contextsWithout
    rw [h.2]
  unfold claimCollapse
  rw [if_pos h, raise_eq, handBack_eq_contextsWithout, hcontexts,
    modChannel_of_put (s := s) (r := { s.channel c with context := none, lag := 0 }) _ rfl]
  rfl

/-- The quiet test of a carried channel whose guard is over (R120). -/
theorem quietStep_eq {s : State} {c : Channel} {k : CtxNo} {x : Context} {y : FibreRegister}
    (hphase : (s.channel c).phase = .carried) (hk : (s.channel c).context = some k) (hx : s.context k = some x)
    (hguard : x.guardRemaining = 0) (hy : s.register c = some y) : s.quietStep c =
      if s.quiet c x y = true then { s with
        cm := Assoc.put s.cm c { (s.channel c).moved .carried .fibre .pass .live with
          active := ⟨.fibre, .pass, .live⟩, context := none, lag := 0, collapsed := true }
        cp := { s.cp with contexts := Assoc.drop s.cp.contexts k }
        du := s.du.raised .collapsed c }
      else s := by
  unfold quietStep
  rw [hk, hy]
  dsimp only
  rw [hx]
  dsimp only
  by_cases hquiet : s.quiet c x y = true
  · rw [if_pos ⟨hphase, hguard, hquiet⟩, if_pos hquiet, claimCollapse_eq ⟨hphase, hk⟩]
    rfl
  · rw [if_neg fun ⟨_, _, h⟩ => hquiet h, if_neg hquiet]

theorem quiet_iff {s : State} {c : Channel} {x : Context} {y : FibreRegister} {idle : Pattern}
    (hidle : (s.channel c).idle = some idle) : s.quiet c x y = true ↔ (s.channel c).lag = 0 ∨
      (x.window.filter id).length ≤ s.sc.params.quietLimit ∨
      y.carriedWord.extractLsb' 8 4 = idle.extractLsb' 8 4 := by
  unfold quiet
  rw [idleOf_of_some hidle]
  simp only [Bool.or_eq_true, decide_eq_true_eq, or_assoc]
  rfl

theorem takeGuardEnd_eq {s : State} {c : Channel} {y : FibreRegister} (h : s.register c = some y) :
    s.takeGuardEnd c = ((s.setRegister c { y with guardEnding := false }).quietStep c).chooseWord c := by
  unfold takeGuardEnd
  rw [h]

end State

/-- A register after a choice whose word is sent as it is. -/
theorem choose_unguarded (x : FibreRegister) (source : Option Pattern) (holdLimit : Nat) (idle : Pattern) :
    { x.choose source holdLimit idle with frameWord := (x.choose source holdLimit idle).carriedWord } =
      match source with
      | some w => ⟨w, w, w, 0, false, x.guardEnding⟩
      | none =>
        let repeats := min 64 (x.repeats + 1)
        let w := if repeats ≤ holdLimit then x.lastGood else idle
        ⟨w, w, x.lastGood, repeats, x.silent, x.guardEnding⟩ := by
  cases source <;> rfl

theorem goodArrival_eq (a : Option Arrival) : goodArrival a =
    match a with
    | none => none
    | some a => if a.damaged = true then none else some a.word := by
  cases a <;> rfl

/-- Settles O43: the quiet test by `quietStep_eq`, the word by `chooseWord_eq`. -/
theorem guardEndTestsQuietAndChoosesTheWord : Obligations.GuardEndTestsQuietAndChoosesTheWord := by
  intro c k n x y idle s hdue hphase hk hn hidle hx hguard hy r quiet chosen silentDue
  rw [exec_due rfl hdue]
  let v : State := { s with due := s.due.erase (.guardEnd c) }
  let y' : FibreRegister := { y with guardEnding := false }
  let u : State := v.setRegister c y'
  have hu : u.register c = some y' := State.register_setRegister_same _ _ _
  have hends : effect (.guardEnd c) v = (u.quietStep c).chooseWord c := State.takeGuardEnd_eq (s := v) hy
  rw [State.quietStep_eq (s := u) hphase hk hx hguard hu] at hends
  have hquiet : u.quiet c x y' = true ↔ quiet := State.quiet_iff (s := u) hidle
  have hregisters (t : State) (z : FibreRegister)
      (h : t.bi.registers = Assoc.put (Assoc.put s.bi.registers c y') c z) :
      t.register c = some z ∧ ∀ e, e ≠ c → t.register e = s.register e := by
    rw [Assoc.put_put] at h
    exact ⟨State.register_put h, fun e he => State.register_put_other h he⟩
  have hidle' : u.idleOf c = idle := idleOf_of_some hidle
  by_cases hq : quiet
  · rw [if_pos (hquiet.mpr hq)] at hends
    let w : State := { u with
      cm := Assoc.put u.cm c { (u.channel c).moved .carried .fibre .pass .live with
        active := ⟨.fibre, .pass, .live⟩, context := none, lag := 0, collapsed := true }
      cp := { u.cp with contexts := Assoc.drop u.cp.contexts k }
      du := u.du.raised .collapsed c }
    have hw : w.channel c = { r.moved .carried .fibre .pass .live with
        active := ⟨.fibre, .pass, .live⟩, context := none, lag := 0, collapsed := true } :=
      State.channel_put (s := s) rfl
    have hnone : (w.channel c).context = none := by rw [hw]
    have hsource : w.sourceWord c = match (s.slot n).visible with
        | none => none
        | some a => if a.damaged = true then none else some a.word := by
      rw [State.sourceWord_of_slot hnone (by rw [hw]; exact hn), ← goodArrival_eq]
      rfl
    have hz : w.chosenRegister c y' = chosen (match (s.slot n).visible with
        | none => none
        | some a => if a.damaged = true then none else some a.word) := by
      unfold State.chosenRegister
      dsimp only
      rw [State.guardedWord_unguarded _ (.inl hnone), hsource,
        show w.idleOf c = idle from idleOf_of_some (by rw [hw]; exact hidle)]
      exact choose_unguarded _ _ _ _
    have hcontexts : w.contextsChanged c (fun k => k.mark (w.chosenRegister c y').carriedWord) = w.cp.contexts :=
      State.contextsChanged_of_none _ hnone
    have hword : w.chooseWord c = { w with
        bi := { w.bi with registers := Assoc.put w.bi.registers c (w.chosenRegister c y') }
        due := w.due ++ w.silenceDue c (w.chosenRegister c y') } := by
      rw [State.chooseWord_eq (s := w) hu, hcontexts, ite_self]
    rw [hword] at hends
    have hregister := hregisters _ (w.chosenRegister c y') (congrArg (·.bi.registers) hends)
    rw [hends] at hregister
    refine ⟨_, _, congrArg _ hends, hregister.1, hregister.2, rfl, State.keepsOtherChannels_put rfl, fun j hj => ?_, rfl, rfl, ?_,
      fun h => absurd hq h, fun _ => ⟨hz, hw, State.context_freeContext_same s k, rfl⟩⟩
    · exact State.context_freeContext_other s fun e => hj (congrArg some e)
    · exact (congrArg State.frame hends).symm.trans (frame_effect _ _)
  · rw [if_neg fun h => hq (hquiet.mp h)] at hends
    have hz : u.chosenRegister c y' = chosen (x.delay.getD r.lag.val none) := by
      unfold State.chosenRegister
      dsimp only
      rw [State.guardedWord_guard_over (s := u) _ hk hx hguard, State.sourceWord_of_context (s := u) hk hx, hidle']
      exact choose_unguarded _ _ _ _
    have hword : u.chooseWord c = { u with
        bi := { u.bi with registers := Assoc.put u.bi.registers c (u.chosenRegister c y') }
        cp := { u.cp with contexts := u.contextsChanged c fun k => k.mark (u.chosenRegister c y').carriedWord }
        due := u.due ++ u.silenceDue c (u.chosenRegister c y') } := by
      rw [State.chooseWord_eq (s := u) hu, if_pos (show (u.channel c).phase = .carried from hphase)]
    rw [hword] at hends
    have hregister := hregisters _ (u.chosenRegister c y') (congrArg (·.bi.registers) hends)
    rw [hends] at hregister
    refine ⟨_, _, congrArg _ hends, hregister.1, hregister.2, rfl, fun _ _ => rfl, fun j hj => ?_, rfl, rfl, ?_,
      fun _ => ⟨hz, rfl, rfl, ?_⟩, fun h => absurd h hq⟩
    · exact State.context_contextsChanged_other (s := u) _ fun e => hj (e.trans hk)
    · exact (congrArg State.frame hends).symm.trans (frame_effect _ _)
    · exact State.context_contextsChanged_same (s := u) _ hk hx

/-! ## The cut -/

namespace State

theorem contextsChanged_of_some {s : State} {c : Channel} {k : CtxNo} {x : Context} (f : Context → Context)
    (hk : (s.channel c).context = some k) (hx : s.context k = some x) :
    s.contextsChanged c f = Assoc.put s.cp.contexts k (f x) := by
  unfold contextsChanged
  rw [hk]
  dsimp only
  rw [hx]

theorem startCarriage_eq {s : State} {c : Channel} {k : CtxNo} {x : Context} (hk : (s.channel c).context = some k)
    (hx : s.context k = some x) : s.startCarriage c = { s with
      cm := Assoc.put s.cm c { (s.channel c).moved .carried .fibre .pass .live with
        active := ⟨.fibre, .pass, .live⟩, collapsed := false }
      cp := { s.cp with contexts := Assoc.put s.cp.contexts k { x with
        guardRemaining := s.sc.params.guardFrames
        lastSubstituted := x.lastCopper
        window := List.replicate 32 true } } } := by
  unfold startCarriage
  have hk' : ((s.modChannel c fun r => { r.enterNow .carried with collapsed := false }).channel c).context = some k := by
    rw [channel_modChannel_same]
    exact hk
  rw [modContextOf_eq, contextsChanged_of_some _ hk' hx]
  rfl

/-- The register of a channel that is cut: its word at the lag, or the last copper word, guarded (R111, R113). -/
def cutRegister (last : Pattern) (source : Option Pattern) (guard : Nat) : FibreRegister where
  frameWord := if 0 < guard then last.extractLsb' 8 4 ++ (source.getD last).extractLsb' 0 8 else source.getD last
  carriedWord := source.getD last
  lastGood := source.getD last
  repeats := if source = none then 1 else 0
  silent := false
  guardEnding := false

/-- The context of a channel that is cut (R111, R119). -/
def cutContext (x : Context) (last word : Pattern) (guard : Nat) : Context :=
  { x with
    guardRemaining := guard
    lastSubstituted := some word
    window := decide (word ≠ last) :: List.replicate 31 true }

theorem choose_start (last : Pattern) (source : Option Pattern) {holdLimit : Nat} (idle : Pattern)
    (hhold : 1 ≤ holdLimit) (guard : Nat) :
    { (FibreRegister.start last).choose source holdLimit idle with
      frameWord := if 0 < guard then last.extractLsb' 8 4 ++
        ((FibreRegister.start last).choose source holdLimit idle).carriedWord.extractLsb' 0 8
        else ((FibreRegister.start last).choose source holdLimit idle).carriedWord } = cutRegister last source guard := by
  cases source with
  | some w => rfl
  | none =>
    have hone : min Config.repeatMax ((FibreRegister.start last).repeats + 1) = 1 := rfl
    unfold FibreRegister.choose
    dsimp only
    rw [hone, if_pos hhold]
    rfl

/-- A cut, as one equation (R111). -/
theorem cutNow_eq {s : State} {c : Channel} {k : CtxNo} {x : Context} {last idle : Pattern} (event : EventKind)
    (hk : (s.channel c).context = some k) (hx : s.context k = some x) (hlast : x.lastCopper = some last)
    (hidle : (s.channel c).idle = some idle) (hhold : 1 ≤ s.sc.params.holdLimit) :
    let z := cutRegister last (x.delay.getD (s.channel c).lag.val none) s.sc.params.guardFrames
    s.cutNow c event = { s with
      bi := { s.bi with registers := Assoc.put s.bi.registers c z }
      cm := Assoc.put s.cm c { (s.channel c).moved .carried .fibre .pass .live with
        active := ⟨.fibre, .pass, .live⟩, collapsed := false }
      cp := { s.cp with
        contexts := Assoc.put s.cp.contexts k (cutContext x last z.carriedWord s.sc.params.guardFrames) }
      du := s.du.raised event c } := by
  intro z
  let x' : Context := { x with
    guardRemaining := s.sc.params.guardFrames
    lastSubstituted := x.lastCopper
    window := List.replicate 32 true }
  let t : State := { s with
    cm := Assoc.put s.cm c { (s.channel c).moved .carried .fibre .pass .live with
      active := ⟨.fibre, .pass, .live⟩, collapsed := false }
    cp := { s.cp with contexts := Assoc.put s.cp.contexts k x' } }
  let u : State := t.setRegister c (FibreRegister.start last)
  have hlast' : ((s.contextOf c).bind Context.lastCopper).getD (Config.absentPattern s.freeUsed) = last := by
    rw [contextOf_of_some hk, hx, Option.bind_some, hlast]
    rfl
  have hu : u.channel c = { (s.channel c).moved .carried .fibre .pass .live with
      active := ⟨.fibre, .pass, .live⟩, collapsed := false } := channel_put (s := s) rfl
  have huk : (u.channel c).context = some k := by rw [hu]; exact hk
  have hux : u.context k = some x' := Assoc.find_put_same _ _ _
  have hz : u.chosenRegister c (FibreRegister.start last) = z := by
    unfold chosenRegister
    dsimp only
    rw [guardedWord_carried _ (by rw [hu]; rfl) huk hux hlast, sourceWord_of_context huk hux, hu,
      idleOf_of_some (by rw [hu]; exact hidle)]
    exact choose_start last _ idle hhold _
  have hdue : u.silenceDue c z = [] := by
    refine if_neg fun ⟨hrepeats, _⟩ => Nat.not_lt_of_le (Nat.le_trans ?_ hhold) hrepeats
    show (if _ then 1 else 0) ≤ 1
    split <;> omega
  have hmark : x'.mark z.carriedWord = cutContext x last z.carriedWord s.sc.params.guardFrames := by
    unfold Context.mark
    rw [show x'.lastSubstituted = some last from hlast]
    simp [x', cutContext]
  unfold cutNow
  dsimp only
  rw [hlast', startCarriage_eq hk hx, raise_eq]
  show { u.chooseWord c with du := (u.chooseWord c).du.raised event c } = _
  rw [chooseWord_eq (register_setRegister_same _ _ _), hz, hdue, if_pos (by rw [hu]; rfl),
    contextsChanged_of_some _ huk hux, hmark, List.append_nil]
  show { s with
    bi := { s.bi with registers := Assoc.put (Assoc.put s.bi.registers c _) c z }
    cm := t.cm
    cp := { s.cp with contexts := Assoc.put (Assoc.put s.cp.contexts k x') k _ }
    du := _ } = _
  rw [Assoc.put_put, Assoc.put_put]
  rfl

theorem takeCutDue_eq {s : State} {c : Channel} {n : SlotNo}
    (h : (s.channel c).phase = .cutting ∧ (s.channel c).slot = some n) : s.takeCutDue c n = s.cutNow c .cutDone := by
  unfold takeCutDue claimCutDue
  rw [if_pos h]
  rfl

theorem takeCutDue_stale {s : State} {c : Channel} {n : SlotNo}
    (h : ¬ ((s.channel c).phase = .cutting ∧ (s.channel c).slot = some n)) : s.takeCutDue c n = s := by
  unfold takeCutDue claimCutDue
  rw [if_neg h]
  rfl

/-- A slot whose follow mark is cleared (R104). -/
def unmarkFollow (s : State) (n : SlotNo) : State := s.modSlot n fun e => { e with followDue := false }

theorem takeFollowCut_eq {s : State} {c : Channel} {n : SlotNo} (hmark : (s.slot n).followDue = true)
    (h : ((s.channel c).phase = .proven ∨ (s.channel c).phase = .cutting) ∧ (s.channel c).slot = some n) :
    s.takeFollowCut c n = ((s.unmarkFollow n).dropCut c).cutNow c .followed := by
  have hclaim : (s.unmarkFollow n).claimFollowCut c n = some (((s.unmarkFollow n).dropCut c).cutNow c .followed) :=
    if_pos h
  unfold takeFollowCut
  rw [if_pos hmark]
  exact congrArg (Option.getD · _) hclaim

theorem takeFollowCut_stale {s : State} {c : Channel} {n : SlotNo} (hmark : (s.slot n).followDue = true)
    (h : ¬ (((s.channel c).phase = .proven ∨ (s.channel c).phase = .cutting) ∧ (s.channel c).slot = some n)) :
    s.takeFollowCut c n = s.unmarkFollow n := by
  have hclaim : (s.unmarkFollow n).claimFollowCut c n = none := if_neg h
  unfold takeFollowCut
  rw [if_pos hmark]
  exact congrArg (Option.getD · _) hclaim

end State

/-- Settles O42: both claims make the cut of `cutNow_eq`. -/
theorem cutStartsCarriage : Obligations.CutStartsCarriage := by
  intro i d c n follow s hi hdue hcase r ready unmarked
  rw [exec_due hi hdue]
  refine ⟨fun hnot => ?_, fun k x last idle hready hk hx hlast hidle hhold => ?_⟩
  · obtain ⟨rfl, rfl⟩ | ⟨rfl, rfl, hmark⟩ := hcase
    · have hstale : ¬ (r.phase = .cutting ∧ r.slot = some n) := fun ⟨hphase, hslot⟩ => hnot ⟨hslot, .inl hphase⟩
      exact ⟨_, congrArg _ (State.takeCutDue_stale (s := { s with due := _ }) hstale), rfl, fun _ _ => rfl, rfl, rfl⟩
    · have hstale : ¬ ((r.phase = .proven ∨ r.phase = .cutting) ∧ r.slot = some n) := fun ⟨hphase, hslot⟩ =>
        hnot ⟨hslot, hphase.symm.imp id fun h => ⟨rfl, h⟩⟩
      exact ⟨_, congrArg _ (State.takeFollowCut_stale (s := { s with due := _ }) hmark hstale),
        State.slot_put (s := s) rfl, State.keepsOtherSlots_put rfl, rfl, rfl⟩
  · intro source word guard
    obtain ⟨hslot, hphase⟩ := hready
    obtain ⟨rfl, rfl⟩ | ⟨rfl, rfl, hmark⟩ := hcase
    · let v : State := { s with due := s.due.erase (.cutDue c n) }
      have hcut : effect (.cutDue c n) v = v.cutNow c .cutDone :=
        State.takeCutDue_eq (s := v) ⟨hphase.resolve_right (fun h => nomatch h.1), hslot⟩
      rw [State.cutNow_eq (s := v) .cutDone hk hx hlast hidle hhold] at hcut
      refine ⟨_, congrArg _ hcut, State.channel_put (s := s) rfl, State.keepsOtherChannels_put rfl,
        Assoc.find_put_same _ _ _, fun j hj => Assoc.find_put_other _ _ fun e => hj (congrArg some e), rfl,
        State.register_put (s := s) rfl, fun e he => State.register_put_other rfl he, rfl, fun _ _ => rfl, fun _ => rfl,
        nofun, rfl, rfl, (congrArg State.frame hcut).symm.trans (frame_effect _ _)⟩
    · let v : State := { s with due := s.due.erase (.followCut c n) }
      let w : State := { v with sn := { v.sn with
        slots := Assoc.put s.sn.slots n { s.slot n with followDue := false }
        queue := s.queueWithout .cut c
        outstanding := s.outstandingWithout .cut c
        schedules := Assoc.drop s.sn.schedules c } }
      have hcut : effect (.followCut c n) v = w.cutNow c .followed := by
        refine (State.takeFollowCut_eq (s := v) hmark ⟨hphase.symm.imp And.right id, hslot⟩).trans ?_
        rw [State.dropCut_eq]
        rfl
      rw [State.cutNow_eq (s := w) .followed hk hx hlast hidle hhold] at hcut
      refine ⟨_, congrArg _ hcut, State.channel_put (s := s) rfl, State.keepsOtherChannels_put rfl,
        Assoc.find_put_same _ _ _, fun j hj => Assoc.find_put_other _ _ fun e => hj (congrArg some e), rfl,
        State.register_put (s := s) rfl, fun e he => State.register_put_other rfl he, State.slot_put (s := s) rfl,
        State.keepsOtherSlots_put rfl, nofun,
        fun _ => ⟨rfl, rfl, ⟨Assoc.find_drop_same _ _, fun _ h => Assoc.find_drop_other _ h⟩, rfl, rfl⟩,
        rfl, rfl, (congrArg State.frame hcut).symm.trans (frame_effect _ _)⟩

end Sys2Proof.Machine
end

section
/-! SUPPORT. The outcomes of an own notice (R92, R94 to R97), each as one equation, and the statements that they settle. -/

namespace Sys2Proof.Machine

namespace State

/-! ## What an outcome keeps -/

/-- What no outcome of an own notice changes but by its channel, its slot and its due step. -/
structure OutcomeKeeps (c : Channel) (n : SlotNo) (s t : State) : Prop where
  outstanding : t.sn.outstanding = s.sn.outstanding
  frame : t.claimFrame = s.claimFrame
  channels : keepsOtherChannels c s t
  slots : keepsOtherSlots (some n) s t
  queue : t.cp.queue = s.cp.queue

namespace OutcomeKeeps

variable {c : Channel} {n : SlotNo} {s t u : State}

theorem refl (c : Channel) (n : SlotNo) (s : State) : OutcomeKeeps c n s s :=
  ⟨rfl, rfl, fun _ _ => rfl, fun _ _ => rfl, rfl⟩

theorem trans (h : OutcomeKeeps c n s t) (h' : OutcomeKeeps c n t u) : OutcomeKeeps c n s u :=
  ⟨h'.outstanding.trans h.outstanding, h'.frame.trans h.frame, fun d hd => (h'.channels d hd).trans (h.channels d hd),
    fun m hm => (h'.slots m hm).trans (h.slots m hm), h'.queue.trans h.queue⟩

theorem modContextOf (s : State) (c : Channel) (n : SlotNo) (f : Context → Context) :
    OutcomeKeeps c n s (s.modContextOf c f) := by
  rw [modContextOf_eq]
  exact ⟨rfl, rfl, fun _ _ => rfl, fun _ _ => rfl, rfl⟩

theorem addDue (s : State) (c : Channel) (n : SlotNo) (d : Due) : OutcomeKeeps c n s (s.addDue d) :=
  ⟨rfl, rfl, fun _ _ => rfl, fun _ _ => rfl, rfl⟩

theorem appendNotice (s : State) (c : Channel) (n : SlotNo) (k : NoticeKind) :
    OutcomeKeeps c n s (s.appendNotice k c) :=
  ⟨rfl, rfl, fun _ _ => rfl, fun _ _ => rfl, rfl⟩

theorem schedule (s : State) (c : Channel) (n : SlotNo) (toGo : Nat) : OutcomeKeeps c n s (s.schedule c n toGo) :=
  ⟨rfl, rfl, fun _ _ => rfl, fun _ _ => rfl, rfl⟩

theorem modSlot (s : State) (c : Channel) (n : SlotNo) (f : SlotEntry → SlotEntry) :
    OutcomeKeeps c n s (s.modSlot n f) :=
  ⟨rfl, rfl, fun _ _ => rfl, keepsOtherSlots_put rfl, rfl⟩

theorem modChannel (s : State) (c : Channel) (n : SlotNo) (f : ChannelRecord → ChannelRecord) :
    OutcomeKeeps c n s (s.modChannel c f) :=
  ⟨rfl, rfl, keepsOtherChannels_put rfl, fun _ _ => rfl, rfl⟩

theorem raise (s : State) (c : Channel) (n : SlotNo) (k : EventKind) : OutcomeKeeps c n s (s.raise k c) :=
  ⟨by rw [raise_eq], claimFrame_raise _ _ _, fun _ _ => channel_raise _ _ _ _, fun _ _ => slot_raise _ _ _ _,
    by rw [raise_eq]⟩

theorem getD {o : Option State} (h : ∀ u, o = some u → OutcomeKeeps c n s u) (h' : OutcomeKeeps c n s t) :
    OutcomeKeeps c n s (o.getD t) := by
  cases o with
  | none => exact h'
  | some u => exact h u rfl

theorem claimSlotReleased {c : Channel} {n : SlotNo} {s u : State} (h : s.claimSlotReleased c n = some u) :
    OutcomeKeeps c n s u := by
  unfold State.claimSlotReleased at h
  split at h
  · cases h
    exact modChannel _ _ _ _
  · cases h

theorem freeReserved (s : State) (c : Channel) (n : SlotNo) : OutcomeKeeps c n s (s.freeReserved c n) :=
  getD (fun _ h => (modSlot s c n _).trans (claimSlotReleased h)) (modSlot s c n _)

theorem barReserved (s : State) (c : Channel) (n : SlotNo) : OutcomeKeeps c n s (s.barReserved c n) :=
  getD (fun _ h => (modSlot s c n _).trans (claimSlotReleased h)) (modSlot s c n _)

theorem joinSetback (s : State) (c : Channel) (n : SlotNo) (gap : Bool) : OutcomeKeeps c n s (s.joinSetback c gap) := by
  unfold State.joinSetback
  dsimp only
  have hmore := modContextOf s c n Context.moreJoinAttempts
  split
  · exact hmore.trans (addDue _ _ _ _)
  · split
    · exact hmore.trans (modContextOf _ _ _ _)
    · exact hmore.trans (appendNotice _ _ _ _)

theorem cutSetback (s : State) (c : Channel) (n : SlotNo) : OutcomeKeeps c n s (s.cutSetback c n) := by
  unfold State.cutSetback
  dsimp only
  have hmore := modContextOf s c n Context.moreCutAttempts
  split
  · exact hmore.trans (addDue _ _ _ _)
  · exact hmore.trans (appendNotice _ _ _ _)

theorem claimJoinAgreed (h : s.claimJoinAgreed c n = some u) : OutcomeKeeps c n s u := by
  unfold State.claimJoinAgreed at h
  split at h
  · cases h
    exact (((modSlot s c n _).trans (modChannel _ c n _)).trans (modContextOf _ c n _)).trans (raise _ c n _)
  · cases h

theorem claimLeaveResolved {barred : Bool} (hnone : s.sn.outstanding = none)
    (h : s.claimLeaveResolved c n barred = some u) : OutcomeKeeps c n s u := by
  obtain ⟨-, -, -, hchannels, hcp, -, hslots, -, houtstanding, -, -, hframe, -⟩ := claimLeaveResolved_spec h
  refine ⟨houtstanding.trans ?_, hframe, hchannels, hslots, by rw [hcp]⟩
  unfold outstandingWithout
  rw [hnone]

end OutcomeKeeps

/-! ## Setbacks -/

theorem modContextOf_of_some {s : State} {c : Channel} {k : CtxNo} {x : Context} (f : Context → Context)
    (hk : (s.channel c).context = some k) (hx : s.context k = some x) :
    s.modContextOf c f = { s with cp := { s.cp with contexts := Assoc.put s.cp.contexts k (f x) } } := by
  rw [modContextOf_eq, contextsChanged_of_some f hk hx]

theorem joinAttempts_eq {s : State} {c : Channel} {k : CtxNo} {x : Context} (hk : (s.channel c).context = some k)
    (hx : s.context k = some x) : s.joinAttempts c = x.joinAttempts := by
  unfold joinAttempts
  rw [contextOf_of_some hk, hx]

theorem cutAttempts_eq {s : State} {c : Channel} {k : CtxNo} {x : Context} (hk : (s.channel c).context = some k)
    (hx : s.context k = some x) : s.cutAttempts c = x.cutAttempts := by
  unfold cutAttempts
  rw [contextOf_of_some hk, hx]

section
variable {s : State} {c : Channel} {k : CtxNo} {x : Context} (hk : (s.channel c).context = some k)
  (hx : s.context k = some x)
include hk hx

/-- A changed context stays the channel's. -/
theorem holds_modContextOf (f : Context → Context) :
    ((s.modContextOf c f).channel c).context = some k ∧ (s.modContextOf c f).context k = some (f x) := by
  refine ⟨by rw [channel_modContextOf]; exact hk, ?_⟩
  rw [modContextOf_of_some _ hk hx]
  exact Assoc.find_put_same _ _ _

theorem joinAttempts_more : (s.modContextOf c Context.moreJoinAttempts).joinAttempts c = x.joinAttempts + 1 :=
  have ⟨hk', hx'⟩ := holds_modContextOf hk hx Context.moreJoinAttempts
  joinAttempts_eq hk' hx'

theorem cutAttempts_more : (s.modContextOf c Context.moreCutAttempts).cutAttempts c = x.cutAttempts + 1 :=
  have ⟨hk', hx'⟩ := holds_modContextOf hk hx Context.moreCutAttempts
  cutAttempts_eq hk' hx'

/-- The eighth JOIN attempt (R95). -/
theorem joinSetback_spent (gap : Bool) (h : 8 ≤ x.joinAttempts + 1) : s.joinSetback c gap = { s with
    cp := { s.cp with contexts := Assoc.put s.cp.contexts k { x with joinAttempts := x.joinAttempts + 1 } }
    due := s.due ++ [.joinFailed c] } := by
  unfold joinSetback
  dsimp only
  rw [joinAttempts_more hk hx, modContextOf_of_some _ hk hx]
  exact if_pos h

/-- An earlier one that starts the retry gap (R95, R98). -/
theorem joinSetback_gap (h : x.joinAttempts + 1 < 8) : s.joinSetback c true = { s with
    cp := { s.cp with
      contexts := Assoc.put s.cp.contexts k { x with joinAttempts := x.joinAttempts + 1, retryGap := 800 } } } := by
  have ⟨hk', hx'⟩ := holds_modContextOf hk hx Context.moreJoinAttempts
  unfold joinSetback
  dsimp only
  rw [joinAttempts_more hk hx, if_neg (show ¬ Config.joinLimit ≤ _ from Nat.not_le_of_lt h), if_pos rfl, modContextOf_of_some _ hk' hx',
    modContextOf_of_some _ hk hx]
  dsimp only
  rw [Assoc.put_put]
  rfl

/-- An earlier one that is requested again (R95). -/
theorem joinSetback_again (h : x.joinAttempts + 1 < 8) : s.joinSetback c false = { s with
    cp := { s.cp with contexts := Assoc.put s.cp.contexts k { x with joinAttempts := x.joinAttempts + 1 } }
    sn := { s.sn with queue := s.sn.queue ++ [⟨.join, c⟩] } } := by
  unfold joinSetback
  dsimp only
  rw [joinAttempts_more hk hx, if_neg (show ¬ Config.joinLimit ≤ _ from Nat.not_le_of_lt h), modContextOf_of_some _ hk hx]
  rfl

/-- A CUT that is declined or expires (R96). -/
theorem cutSetback_eq (n : SlotNo) : s.cutSetback c n = { s with
    cp := { s.cp with contexts := Assoc.put s.cp.contexts k { x with cutAttempts := x.cutAttempts + 1 } }
    sn := { s.sn with queue := if 3 ≤ x.cutAttempts + 1 then s.sn.queue else s.sn.queue ++ [⟨.cut, c⟩] }
    due := s.due ++ if 3 ≤ x.cutAttempts + 1 then [.cutFailed c n] else [] } := by
  unfold cutSetback
  dsimp only
  rw [cutAttempts_more hk hx, modContextOf_of_some _ hk hx]
  by_cases h : 3 ≤ x.cutAttempts + 1
  · rw [if_pos h, if_pos h]
    exact if_pos h
  · rw [if_neg h, if_neg h, List.append_nil]
    exact if_neg h

end

/-- A JOIN's slot freed, where the record names it (R95). -/
theorem freeReserved_eq {s : State} {c : Channel} {n : SlotNo}
    (h : (s.channel c).phase = .joining ∧ (s.channel c).slot = some n) : s.freeReserved c n = { s with
      cm := Assoc.put s.cm c { s.channel c with slot := none }
      sn := { s.sn with slots := Assoc.put s.sn.slots n (s.slot n).freed } } := by
  have hclaim : (s.freeSlot n).claimSlotReleased c n =
      some ((s.freeSlot n).modChannel c fun r => { r with slot := none }) := if_pos h
  unfold freeReserved
  dsimp only
  rw [hclaim]
  rfl

/-- The same for a slot that is barred. -/
theorem barReserved_eq {s : State} {c : Channel} {n : SlotNo}
    (h : (s.channel c).phase = .joining ∧ (s.channel c).slot = some n) : s.barReserved c n = { s with
      cm := Assoc.put s.cm c { s.channel c with slot := none }
      sn := { s.sn with
        slots := Assoc.put s.sn.slots n { (s.slot n).freed with
          state := .barred
          barClock := 2 * s.sc.params.orphanFrames } } } := by
  have hclaim : (s.barSlot n).claimSlotReleased c n =
      some ((s.barSlot n).modChannel c fun r => { r with slot := none }) := if_pos h
  unfold barReserved
  dsimp only
  rw [hclaim]
  rfl

/-! ## NOTICE_EXPIRY -/

theorem takeNoticeExpiry_eq {s : State} {o : Outstanding} {number : BitVec 4} (ho : s.sn.outstanding = some o)
    (hnumber : o.number = number) (hexpired : o.expired = true) : s.takeNoticeExpiry number =
      match o.kind with
      | .join => (s.clearOutstanding.freeReserved o.channel o.slot).joinSetback o.channel false
      | .cut => s.clearOutstanding.cutSetback o.channel o.slot
      | .leave => (s.clearOutstanding.claimLeaveResolved o.channel o.slot false).getD s.clearOutstanding := by
  unfold takeNoticeExpiry
  rw [ho]
  dsimp only
  exact if_pos ⟨hnumber, hexpired⟩

theorem takeNoticeExpiry_stale {s : State} {number : BitVec 4}
    (h : ∀ o, s.sn.outstanding = some o → ¬ (o.number = number ∧ o.expired = true)) :
    s.takeNoticeExpiry number = s := by
  unfold takeNoticeExpiry
  cases ho : s.sn.outstanding with
  | none => rfl
  | some o => exact if_neg (h o ho)

theorem claimLeaveResolved_isSome {s : State} {c : Channel} {n : SlotNo} (barred : Bool)
    (h : (s.channel c).phase = .leaving ∧ (s.channel c).slot = some n) :
    ∃ u, s.claimLeaveResolved c n barred = some u := ⟨_, if_pos h⟩

/-! ## FRAME_SENT -/

theorem exec_frameSent {s : State} (hdue : s.due = []) : exec .frameSent s = .next s.reportSent := by
  show Host.Outcome.next s.settled.reportSent = _
  rw [settled_of_due_nil hdue]

theorem carriedBy_iff (o : Outstanding) (f : NoticeField) :
    carriedBy o f = true ↔ f.kind = some o.kind ∧ f.number = o.number ∧ f.slot = o.slot := by
  unfold carriedBy
  simp [and_assoc]

/-- A frame without the outstanding notice has gone out (R71). -/
theorem reportSent_not_carried {s : State} {f : CarrierFrame} (hf : s.cl.sending = some f)
    (h : ∀ o, s.sn.outstanding = some o → ¬ carriedBy o f.notice = true) :
    s.reportSent = { s with cl := { s.cl with sending := none } } := by
  unfold reportSent
  rw [hf]
  dsimp only
  cases ho : s.sn.outstanding with
  | none => rfl
  | some o => exact if_neg (h o ho)

/-- A frame with it has gone out: the notice ages (R92). -/
theorem reportSent_carried {s : State} {f : CarrierFrame} {o o' : Outstanding} (hf : s.cl.sending = some f)
    (ho : s.sn.outstanding = some o) (h : carriedBy o f.notice = true) (ho' : o.reported s.sc.params.noticeWait = o') :
    s.reportSent = { s with
      cl := { s.cl with sending := none }
      sn := { s.sn with outstanding := some o' }
      due := s.due ++ if o'.expired = true then [.noticeExpiry o'.number] else [] } := by
  unfold reportSent
  rw [hf]
  dsimp only
  rw [ho]
  dsimp only
  rw [if_pos h, ho']
  by_cases hexpired : o'.expired = true
  · rw [if_pos hexpired, if_pos hexpired]
    rfl
  · rw [if_neg hexpired, if_neg hexpired, List.append_nil]

end State

/-- Settles O49: the report by `reportSent_carried`, the expiry by `takeNoticeExpiry_eq` and the setbacks. -/
theorem sentNoticesAgeAndExpire : Obligations.SentNoticesAgeAndExpire := by
  intro s
  refine ⟨fun hdue hnone => ?_, fun f hdue hf => ⟨fun hnone => ?_, fun o ho hnot => ?_, fun o ho hkind hnumber hslot => ?_⟩,
    fun number hdue => ⟨fun hnot => ?_, ?_, ?_⟩⟩
  · rw [State.exec_frameSent hdue, reportSent_of_sending_none hnone]
  · rw [State.exec_frameSent hdue, State.reportSent_not_carried hf]
    intro o ho
    rw [hnone] at ho
    cases ho
  · rw [State.exec_frameSent hdue, State.reportSent_not_carried hf]
    intro o' ho' hcarried
    cases ho.symm.trans ho'
    obtain ⟨hkind, hnumber, -⟩ := (State.carriedBy_iff _ _).mp hcarried
    exact hnot.elim (fun h => h hkind) fun h => h hnumber
  · intro countdown ended
    rw [State.exec_frameSent hdue,
      State.reportSent_carried hf ho ((State.carriedBy_iff _ _).mpr ⟨hkind, hnumber, hslot⟩) rfl, hdue]
    rfl
  · rw [exec_due rfl hdue]
    exact congrArg _ (State.takeNoticeExpiry_stale (s := { s with due := _ }) hnot)
  · intro o k x ho hnumber hexpired hkind hk hx hjoin attempts spent
    rw [exec_due rfl hdue]
    let v : State := { s with sn := { s.sn with outstanding := none }, due := s.due.erase (.noticeExpiry number) }
    have hexpiry := State.takeNoticeExpiry_eq (s := { s with due := s.due.erase (.noticeExpiry number) }) ho hnumber hexpired
    obtain ⟨kind, number', channel, slot, label, countdown, age, firstSent, expired⟩ := o
    cases kind with
    | join =>
      let w : State := { v with
        cm := Assoc.put s.cm channel { s.channel channel with slot := none }
        sn := { v.sn with slots := Assoc.put s.sn.slots slot (s.slot slot).freed } }
      have hreserved : v.freeReserved channel slot = w := State.freeReserved_eq (s := v) (hjoin rfl)
      have hw : w.channel channel = { s.channel channel with slot := none } := State.channel_put (s := s) rfl
      have hexpiry : effect (.noticeExpiry number) { s with due := s.due.erase (.noticeExpiry number) } =
          w.joinSetback channel false := hexpiry.trans (congrArg (State.joinSetback · channel false) hreserved)
      have hwk : (w.channel channel).context = some k := by rw [hw]; exact hk
      by_cases h : 8 ≤ x.joinAttempts + 1
      · rw [State.joinSetback_spent (s := w) hwk hx false h] at hexpiry
        refine ⟨_, congrArg _ hexpiry, rfl, (if_pos h).symm, congrArg (_ ++ ·) (if_pos h).symm,
          Assoc.find_put_same _ _ _, fun j hj => Assoc.find_put_other _ _ fun e => hj (congrArg some e), rfl,
          State.keepsOtherChannels_put (s := s) rfl, hw, State.slot_put (s := s) rfl, State.keepsOtherSlots_put (s := s) rfl,
          rfl, rfl, rfl⟩
      · rw [State.joinSetback_again (s := w) hwk hx (Nat.lt_of_not_le h)] at hexpiry
        refine ⟨_, congrArg _ hexpiry, rfl, (if_neg h).symm, ?_,
          Assoc.find_put_same _ _ _, fun j hj => Assoc.find_put_other _ _ fun e => hj (congrArg some e), rfl,
          State.keepsOtherChannels_put (s := s) rfl, hw, State.slot_put (s := s) rfl, State.keepsOtherSlots_put (s := s) rfl,
          rfl, rfl, rfl⟩
        exact (List.append_nil _).symm.trans (congrArg (_ ++ ·) (if_neg h).symm)
    | cut =>
      have hexpiry : effect (.noticeExpiry number) { s with due := s.due.erase (.noticeExpiry number) } =
          v.cutSetback channel slot := hexpiry
      rw [State.cutSetback_eq (s := v) hk hx slot] at hexpiry
      exact ⟨_, congrArg _ hexpiry, rfl, rfl, rfl, Assoc.find_put_same _ _ _,
        fun j hj => Assoc.find_put_other _ _ fun e => hj (congrArg some e), rfl, fun _ _ => rfl, rfl, rfl,
        fun _ _ => rfl, rfl, rfl, rfl⟩
    | leave => exact absurd rfl hkind
  · intro o ho hnumber hexpired hkind hphase hslot
    rw [exec_due rfl hdue]
    let v : State := { s with sn := { s.sn with outstanding := none }, due := s.due.erase (.noticeExpiry number) }
    have hexpiry := State.takeNoticeExpiry_eq (s := { s with due := s.due.erase (.noticeExpiry number) }) ho hnumber hexpired
    rw [hkind] at hexpiry
    obtain ⟨u, hu⟩ := State.claimLeaveResolved_isSome (s := v) false ⟨hphase, hslot⟩
    obtain ⟨-, -, hrecord, hothers, hcp, hfreed, hslots, hqueue, hout, hschedules, hdu, hframe, hdue'⟩ :=
      State.claimLeaveResolved_spec hu
    have heffect : effect (.noticeExpiry number) { s with due := s.due.erase (.noticeExpiry number) } = u :=
      hexpiry.trans (congrArg (Option.getD · v) hu)
    refine ⟨u, congrArg _ heffect, hout, hqueue, hrecord, hothers, ⟨fun m hm => ?_, hslots⟩, hcp, hschedules, hdu, hframe,
      hdue'⟩
    cases hm
    exact hfreed

end Sys2Proof.Machine
end

section
/-! SUPPORT. The reply of a header (R94 to R97, R59), and the statement that it settles. -/

namespace Sys2Proof.Machine

namespace State

theorem takeReply_none (s : State) : s.takeReply none = s := rfl

theorem takeReply_other {s : State} {o : Outstanding} {m : BitVec 4} (reply : Reply) (ho : s.sn.outstanding = some o)
    (h : m ≠ o.number) : s.takeReply (some ⟨m, reply⟩) = s := by
  unfold takeReply
  rw [ho]
  exact if_neg h

theorem takeReply_matching {s : State} {o : Outstanding} (reply : Reply) (ho : s.sn.outstanding = some o) :
    s.takeReply (some ⟨o.number, reply⟩) = match o.kind with
      | .join => s.clearOutstanding.joinReply o reply
      | .cut => s.clearOutstanding.cutReply o reply
      | .leave => s.clearOutstanding.leaveReply o reply := by
  unfold takeReply
  rw [ho]
  exact if_pos rfl

theorem joinReply_keeps (s : State) (o : Outstanding) (reply : Reply) :
    OutcomeKeeps o.channel o.slot s (s.joinReply o reply) := by
  unfold joinReply
  split
  · exact .getD (fun _ h => .claimJoinAgreed h) (.modSlot _ _ _ _)
  · exact (OutcomeKeeps.freeReserved _ _ _).trans (.joinSetback _ _ _ _)
  · exact (OutcomeKeeps.barReserved _ _ _).trans (.joinSetback _ _ _ _)
  · exact (OutcomeKeeps.freeReserved _ _ _).trans (.addDue _ _ _ _)

theorem cutReply_keeps (s : State) (o : Outstanding) (reply : Reply) :
    OutcomeKeeps o.channel o.slot s (s.cutReply o reply) := by
  unfold cutReply
  split
  · exact .schedule _ _ _ _
  · split
    · exact .appendNotice _ _ _ _
    · exact .cutSetback _ _ _

theorem leaveReply_keeps {s : State} (o : Outstanding) (reply : Reply) (h : s.sn.outstanding = none) :
    OutcomeKeeps o.channel o.slot s (s.leaveReply o reply) :=
  .getD (fun _ hu => .claimLeaveResolved h hu) (.refl _ _ _)

theorem takeReply_keeps {s : State} {o : Outstanding} (reply : Reply) (ho : s.sn.outstanding = some o) :
    OutcomeKeeps o.channel o.slot s.clearOutstanding (s.takeReply (some ⟨o.number, reply⟩)) := by
  rw [takeReply_matching reply ho]
  split
  · exact joinReply_keeps _ _ _
  · exact cutReply_keeps _ _ _
  · exact leaveReply_keeps _ _ rfl

/-- The join-agreed claim (R31, R59), as one equation. -/
theorem claimJoinAgreed_eq {s : State} {c : Channel} (n : SlotNo) (h : (s.channel c).phase = .joining) :
    s.claimJoinAgreed c n = some { s with
      cm := Assoc.put s.cm c { (s.channel c).moved .shadow .pass .pass .shadow with slot := some n }
      cp := { s.cp with contexts := s.contextsChanged c Context.restart }
      sn := { s.sn with slots := Assoc.put s.sn.slots n ((s.slot n).given .held c) }
      du := s.du.raised .joined c } := by
  have hcontexts : (((s.modSlot n fun e => e.take .held c).modChannel c
      fun r => { r.enter .shadow with slot := some n }).contextsChanged c Context.restart) =
      s.contextsChanged c Context.restart :=
    contextsChanged_put (r := { (s.channel c).enter .shadow with slot := some n }) _ rfl rfl rfl
  unfold claimJoinAgreed
  rw [if_pos h, raise_eq, modContextOf_eq, hcontexts]
  rfl

theorem claimJoinAgreed_stale {s : State} {c : Channel} (n : SlotNo) (h : (s.channel c).phase ≠ .joining) :
    s.claimJoinAgreed c n = none := if_neg h

theorem joinReply_agree {s : State} (o : Outstanding) (h : (s.channel o.channel).phase = .joining) :
    s.joinReply o .agree = { s with
      cm := Assoc.put s.cm o.channel { (s.channel o.channel).moved .shadow .pass .pass .shadow with slot := some o.slot }
      cp := { s.cp with contexts := s.contextsChanged o.channel Context.restart }
      sn := { s.sn with slots := Assoc.put s.sn.slots o.slot ((s.slot o.slot).given .held o.channel) }
      du := s.du.raised .joined o.channel } := by
  unfold joinReply
  dsimp only
  rw [claimJoinAgreed_eq _ h]
  rfl

theorem joinReply_agree_stale {s : State} (o : Outstanding) (h : (s.channel o.channel).phase ≠ .joining) :
    s.joinReply o .agree = s.freeSlot o.slot := by
  unfold joinReply
  dsimp only
  rw [claimJoinAgreed_stale _ h]
  rfl

/-- The slot of a JOIN that was declined (R95). -/
def declinedSlot (s : State) (o : Outstanding) (reply : Reply) : SlotEntry :=
  if reply = .decline .slotBusy then
    { (s.slot o.slot).freed with state := .barred, barClock := 2 * s.sc.params.orphanFrames }
  else (s.slot o.slot).freed

/-- The state once the slot of a declined JOIN is released, before the setback is counted (R95). -/
def afterDecline (s : State) (o : Outstanding) (reply : Reply) : State :=
  { s with
    cm := Assoc.put s.cm o.channel { s.channel o.channel with slot := none }
    sn := { s.sn with slots := Assoc.put s.sn.slots o.slot (s.declinedSlot o reply) } }

section
variable {s : State} {o : Outstanding} (h : (s.channel o.channel).phase = .joining ∧
  (s.channel o.channel).slot = some o.slot)
include h

theorem joinReply_notReady : s.joinReply o (.decline .notReady) =
    (s.afterDecline o (.decline .notReady)).joinSetback o.channel true := by
  unfold joinReply
  dsimp only
  rw [freeReserved_eq h]
  rfl

theorem joinReply_slotBusy : s.joinReply o (.decline .slotBusy) =
    (s.afterDecline o (.decline .slotBusy)).joinSetback o.channel false := by
  unfold joinReply
  dsimp only
  rw [barReserved_eq h]
  rfl

theorem joinReply_final {reply : Reply} (hagree : reply ≠ .agree) (hready : reply ≠ .decline .notReady)
    (hbusy : reply ≠ .decline .slotBusy) :
    s.joinReply o reply = (s.afterDecline o reply).addDue (.joinFailed o.channel) := by
  unfold joinReply
  split
  · exact absurd rfl hagree
  · exact absurd rfl hready
  · exact absurd rfl hbusy
  · rw [freeReserved_eq h]
    unfold afterDecline declinedSlot
    rw [if_neg hbusy]

end

/-- A setback changes the contexts, the notice queue and what is due. -/
theorem joinSetback_rest (s : State) (c : Channel) (gap : Bool) :
    let t := s.joinSetback c gap
    t.cm = s.cm ∧ t.du = s.du ∧ t.sn.slots = s.sn.slots ∧ t.sn.schedules = s.sn.schedules := by
  unfold joinSetback
  dsimp only
  split
  · rw [modContextOf_eq]; exact ⟨rfl, rfl, rfl, rfl⟩
  · split
    · rw [modContextOf_eq, modContextOf_eq]; exact ⟨rfl, rfl, rfl, rfl⟩
    · rw [modContextOf_eq]; exact ⟨rfl, rfl, rfl, rfl⟩

/-- What a declined JOIN leaves of records, slots and events (R95). -/
theorem joinReply_decline {s : State} {o : Outstanding} {reply : Reply} (hagree : reply ≠ .agree)
    (h : (s.channel o.channel).phase = .joining ∧ (s.channel o.channel).slot = some o.slot) :
    let t := s.joinReply o reply
    let u := s.afterDecline o reply
    t.cm = u.cm ∧ t.du = u.du ∧ t.sn.slots = u.sn.slots ∧ t.sn.schedules = u.sn.schedules := by
  by_cases hready : reply = .decline .notReady
  · rw [hready, joinReply_notReady h]
    exact joinSetback_rest _ _ _
  · by_cases hbusy : reply = .decline .slotBusy
    · rw [hbusy, joinReply_slotBusy h]
      exact joinSetback_rest _ _ _
    · rw [joinReply_final h hagree hready hbusy]
      exact ⟨rfl, rfl, rfl, rfl⟩

theorem cutReply_again {s : State} {o : Outstanding} (h : s.cl.role = some .follow) :
    s.cutReply o (.decline .crossed) = s.appendNotice .cut o.channel := if_pos ⟨rfl, h⟩

theorem cutReply_decline {s : State} {o : Outstanding} {reply : Reply} (hagree : reply ≠ .agree)
    (h : ¬ (reply = .decline .crossed ∧ s.cl.role = some .follow)) :
    s.cutReply o reply = s.cutSetback o.channel o.slot := by
  cases reply with
  | agree => exact absurd rfl hagree
  | decline reason => exact if_neg fun ⟨hreason, hrole⟩ => h ⟨by rw [hreason], hrole⟩

/-- A declined CUT changes the contexts, the notice queue and what is due. -/
theorem cutReply_rest {s : State} {o : Outstanding} {reply : Reply} (hagree : reply ≠ .agree) :
    let t := s.cutReply o reply
    t.cm = s.cm ∧ t.sn.slots = s.sn.slots ∧ t.du = s.du ∧ t.sn.schedules = s.sn.schedules := by
  by_cases h : reply = .decline .crossed ∧ s.cl.role = some .follow
  · rw [h.1, cutReply_again h.2]
    exact ⟨rfl, rfl, rfl, rfl⟩
  · rw [cutReply_decline hagree h]
    unfold cutSetback
    dsimp only
    rw [modContextOf_eq]
    split
    · exact ⟨rfl, rfl, rfl, rfl⟩
    · exact ⟨rfl, rfl, rfl, rfl⟩

theorem leaveReply_spec {s : State} {o : Outstanding} (reply : Reply)
    (h : (s.channel o.channel).phase = .leaving ∧ (s.channel o.channel).slot = some o.slot) :
    s.claimLeaveResolved o.channel o.slot (decide (reply ≠ .agree)) = some (s.leaveReply o reply) := by
  obtain ⟨u, hu⟩ := claimLeaveResolved_isSome (decide (reply ≠ .agree)) h
  unfold leaveReply
  rw [hu]
  rfl

end State

/-- Settles O53: what every outcome keeps by `takeReply_keeps`, and each kind's outcome by its equations. -/
theorem repliesResolveTheOutstandingNotice : Obligations.RepliesResolveTheOutstandingNotice := by
  refine ⟨fun r s h => State.takeReply_of_none r h, ?_⟩
  intro o reply s ho r t again
  have hkeeps := State.takeReply_keeps reply ho
  refine ⟨fun m hm => State.takeReply_other reply ho hm, rfl, hkeeps.outstanding, hkeeps.frame, hkeeps.channels,
    hkeeps.slots, hkeeps.queue, fun hkind hphase hslot => ?_, fun hkind hagree hphase => ?_, fun hkind => ?_,
    fun hkind hphase hslot => ?_⟩
  all_goals
    have ht := State.takeReply_matching reply ho
    rw [hkind] at ht
  · have ht : t = s.clearOutstanding.joinReply o reply := ht
    clear_value t
    subst ht
    have hjoin : (s.clearOutstanding.channel o.channel).phase = .joining ∧
        (s.clearOutstanding.channel o.channel).slot = some o.slot := ⟨hphase, hslot⟩
    by_cases hagree : reply = .agree
    · subst hagree
      rw [State.joinReply_agree (s := s.clearOutstanding) o hphase]
      have hrecord : { r.moved .shadow .pass .pass .shadow with slot := some o.slot } =
          r.moved .shadow .pass .pass .shadow := by rw [← hslot]; rfl
      refine ⟨rfl, fun _ => ⟨(State.channel_put (s := s) rfl).trans hrecord, State.slot_put (s := s) rfl, rfl, rfl, rfl,
        fun j hj => State.context_contextsChanged_other (s := s) _ hj,
        fun k x hk hx => State.context_contextsChanged_same (s := s) _ hk hx⟩, fun h => absurd rfl h,
        fun h => absurd rfl h, fun _ _ h => h.elim nofun nofun⟩
    · obtain ⟨hcm, hdu, hslots, hschedules⟩ := State.joinReply_decline hagree hjoin
      refine ⟨hschedules, fun h => absurd h hagree, fun _ => ⟨State.channel_put (s := s) hcm, hdu,
        State.slot_put (s := s) hslots⟩, fun _ hready hbusy => ?_, fun k x hreply hk hx => ?_⟩
      · rw [State.joinReply_final hjoin hagree hready hbusy]
        exact ⟨rfl, rfl, rfl⟩
      · let w := s.clearOutstanding.afterDecline o reply
        have hwk : (w.channel o.channel).context = some k := by
          rw [show w.channel o.channel = { r with slot := none } from State.channel_put (s := s) rfl]
          exact hk
        have hother (v : State) (y : Context) (hv : v.cp.contexts = Assoc.put s.cp.contexts k y) :
            keepsOtherContexts (some k) s v := fun j hj => by
          unfold State.context
          rw [hv, Assoc.find_put_other _ _ fun e => hj (congrArg some e)]
        by_cases hspent : 8 ≤ x.joinAttempts + 1
        · have hreply : s.clearOutstanding.joinReply o reply = { w with
              cp := { s.cp with contexts := Assoc.put s.cp.contexts k { x with joinAttempts := x.joinAttempts + 1 } }
              due := s.due ++ [.joinFailed o.channel] } := by
            obtain rfl | rfl := hreply
            · rw [State.joinReply_notReady hjoin, State.joinSetback_spent hwk hx _ hspent]; rfl
            · rw [State.joinReply_slotBusy hjoin, State.joinSetback_spent hwk hx _ hspent]; rfl
          rw [hreply]
          exact ⟨hother _ _ rfl, fun _ => ⟨Assoc.find_put_same _ _ _, rfl, rfl⟩,
            fun h => absurd hspent (Nat.not_le_of_lt h)⟩
        · have hroom := Nat.lt_of_not_le hspent
          obtain rfl | rfl := hreply
          · rw [State.joinReply_notReady hjoin, State.joinSetback_gap hwk hx hroom]
            exact ⟨hother _ _ rfl, fun h => absurd h hspent,
              fun _ => ⟨rfl, nofun, fun _ => ⟨rfl, Assoc.find_put_same _ _ _⟩⟩⟩
          · rw [State.joinReply_slotBusy hjoin, State.joinSetback_again hwk hx hroom]
            exact ⟨hother _ _ rfl, fun h => absurd h hspent,
              fun _ => ⟨rfl, fun _ => ⟨rfl, Assoc.find_put_same _ _ _⟩, nofun⟩⟩
  · have ht : t = s.clearOutstanding.joinReply o reply := ht
    clear_value t
    subst ht hagree
    rw [State.joinReply_agree_stale (s := s.clearOutstanding) o hphase]
    exact ⟨rfl, State.slot_put (s := s) rfl⟩
  · have ht : t = s.clearOutstanding.cutReply o reply := ht
    clear_value t
    subst ht
    by_cases hagree : reply = .agree
    · subst hagree
      refine ⟨rfl, rfl, rfl, fun _ => ⟨rfl, rfl, rfl, ?_, fun c hc => Assoc.find_put_other _ _ hc⟩, fun h => absurd rfl h,
        nofun, fun _ _ h => absurd rfl h⟩
      refine (Assoc.find_put_same _ _ _).trans (congrArg (fun g => some (⟨o.slot, g⟩ : Schedule)) ?_)
      unfold Outstanding.boundariesToGo
      cases o.firstSent <;> rfl
    · obtain ⟨hcm, hslots, hdu, hschedules⟩ := State.cutReply_rest (s := s.clearOutstanding) (o := o) hagree
      refine ⟨State.channel_of_cm hcm _, State.slot_of_slots hslots _, hdu, fun h => absurd h hagree, fun _ => hschedules,
        fun hcrossed hrole => ?_, fun k x _ hnot hk hx => ?_⟩
      · rw [hcrossed, State.cutReply_again (s := s.clearOutstanding) hrole]
        exact ⟨rfl, rfl, rfl⟩
      · rw [State.cutReply_decline (s := s.clearOutstanding) hagree hnot,
          State.cutSetback_eq (s := s.clearOutstanding) hk hx]
        exact ⟨Assoc.find_put_same _ _ _, fun j hj => Assoc.find_put_other _ _ fun e => hj (congrArg some e), rfl, rfl⟩
  · have ht : t = s.clearOutstanding.leaveReply o reply := ht
    clear_value t
    subst ht
    obtain ⟨-, -, hrecord, -, hcp, hfreed, -, hqueue, -, hschedules, hdu, -, hdue⟩ := State.claimLeaveResolved_spec
      (State.leaveReply_spec (s := s.clearOutstanding) reply ⟨hphase, hslot⟩)
    refine ⟨hrecord, hfreed.trans ?_, hqueue, hdu, hcp, hschedules, hdue⟩
    by_cases hagree : reply = .agree
    · rw [if_pos hagree, if_neg (by simp [hagree])]
      rfl
    · rw [if_neg hagree, if_pos (by simp [hagree])]
      rfl

end Sys2Proof.Machine
end

section
/-! SUPPORT. The peer's notices (R100 to R103), reply by reply, and the statement that they settle. -/

namespace Sys2Proof.Machine

theorem inRetiredGroup_iff (p : Phase) : p.inRetiredGroup = true ↔ p ∈ [.retiring, .retired, .recalling, .stranded] := by
  cases p <;> decide

theorem inGroup_of_inRetiredGroup {p : Phase} (h : p.inRetiredGroup = true) : p.inGroup = false ∧ p ≠ .leaving := by
  rw [inRetiredGroup_iff] at h
  simp only [List.mem_cons, List.not_mem_nil, or_false] at h
  obtain rfl | rfl | rfl | rfl := h <;> exact ⟨rfl, Phase.noConfusion⟩

namespace State

/-! ## The steps due before a notice is judged -/

/-- Where no JOIN_FAILED and no CUT_FAILED is due, none is taken. -/
theorem takeReplyClaims_of_none {s : State}
    (h : ∀ x ∈ s.due, (∀ c, x ≠ .joinFailed c) ∧ ∀ c n, x ≠ .cutFailed c n) : s.takeReplyClaims = s := by
  unfold takeReplyClaims
  rw [takeReplyClaim_foldl _ h]
  rfl

/-- One that stands last is taken as its row takes it. -/
theorem takeReplyClaims_of_last {s : State} {front : List Due} {d : Due} (hdue : s.due = front ++ [d])
    (hfront : ∀ x ∈ front, (∀ c, x ≠ .joinFailed c) ∧ ∀ c n, x ≠ .cutFailed c n)
    (hd : (∃ c, d = .joinFailed c) ∨ ∃ c n, d = .cutFailed c n) :
    s.takeReplyClaims = effect d { s with due := front } := by
  unfold takeReplyClaims
  rw [hdue, List.foldl_append, takeReplyClaim_foldl _ hfront]
  obtain ⟨c, rfl⟩ | ⟨c, n, rfl⟩ := hd <;> rfl

theorem claimCutFailed_stale_or_eq (s : State) (c : Channel) (n : SlotNo) :
    s.takeCutFailed c n = s ∨ s.takeCutFailed c n = { s with
      cm := Assoc.put s.cm c ((s.channel c).enter .proven)
      du := s.du.raised .cutFailed c } := by
  unfold takeCutFailed claimCutFailed
  split
  · refine .inr ?_
    rw [raise_eq]
    rfl
  · exact .inl rfl

/-- The row of a reply's claim leaves the peer's notice and what else is due. -/
theorem effect_replyClaim_keeps (s : State) {d : Due} (hd : (∃ c, d = .joinFailed c) ∨ ∃ c n, d = .cutFailed c n) :
    (effect d s).due = s.due ∧ (effect d s).sn.peer = s.sn.peer := by
  obtain ⟨c, rfl⟩ | ⟨c, n, rfl⟩ := hd
  · show (s.takeJoinFailed c).due = _ ∧ (s.takeJoinFailed c).sn.peer = _
    by_cases h : (s.channel c).phase = .joining
    · rw [takeJoinFailed_eq h, endJoin_eq]
      exact ⟨rfl, rfl⟩
    · rw [takeJoinFailed_stale h]
      exact ⟨rfl, rfl⟩
  · show (s.takeCutFailed c n).due = _ ∧ (s.takeCutFailed c n).sn.peer = _
    obtain h | h := claimCutFailed_stale_or_eq s c n
    · rw [h]; exact ⟨rfl, rfl⟩
    · rw [h]; exact ⟨rfl, rfl⟩

/-! ## The notice -/

theorem isRepeat_iff (p : PeerNotice) (k : NoticeKind) (f : NoticeField) :
    isRepeat p k f = true ↔ p.number = f.number ∧ p.kind = k ∧ p.slot = f.slot := by
  unfold isRepeat
  simp [and_assoc]

theorem takeNotice_none {s : State} {f : NoticeField} (h : f.kind = none) : s.takeNotice f = s := by
  unfold takeNotice
  rw [h]

theorem takeNotice_repeat {s : State} {f : NoticeField} {k : NoticeKind} {p : PeerNotice} (hk : f.kind = some k)
    (hp : s.sn.peer = some p) (h : isRepeat p k f = true) : s.takeNotice f = s := by
  unfold takeNotice
  rw [hk]
  dsimp only
  rw [hp]
  exact if_pos h

theorem takeNotice_new {s : State} {f : NoticeField} {k : NoticeKind} (hk : f.kind = some k)
    (h : ∀ p, s.sn.peer = some p → ¬ (p.number = f.number ∧ p.kind = k ∧ p.slot = f.slot)) :
    s.takeNotice f = s.takeReplyClaims.judgeNotice k f := by
  unfold takeNotice
  rw [hk]
  dsimp only
  cases hp : s.sn.peer with
  | none => rfl
  | some p => exact if_neg fun hr => h p hp ((isRepeat_iff _ _ _).mp hr)

/-- The peer's notice recorded with its reply (R100). -/
def recordPeer (u : State) (k : NoticeKind) (f : NoticeField) (reply : Reply) : State :=
  { u with sn := { u.sn with peer := some ⟨k, f.number, f.slot, if k = .join then f.label else 0, reply⟩ } }

theorem judgeNotice_join {s u : State} {f : NoticeField} {reply : Reply} (h : s.judgeJoin f.slot f.label = (u, reply)) :
    s.judgeNotice .join f = u.recordPeer .join f reply := by
  unfold judgeNotice
  dsimp only
  rw [h]
  rfl

theorem judgeNotice_cut {s u : State} {f : NoticeField} {reply : Reply}
    (h : s.judgeCut f.slot f.countdown.toNat = (u, reply)) : s.judgeNotice .cut f = u.recordPeer .cut f reply := by
  unfold judgeNotice
  dsimp only
  rw [h]
  rfl

theorem judgeNotice_leave {s u : State} {f : NoticeField} {reply : Reply} (h : s.judgeLeave f.slot = (u, reply)) :
    s.judgeNotice .leave f = u.recordPeer .leave f reply := by
  unfold judgeNotice
  dsimp only
  rw [h]
  rfl

theorem slotOwner_of_some {s : State} {n : SlotNo} {c : Channel} (h : (s.slot n).channel = some c) :
    s.slotOwner n = some (c, s.channel c) := by
  unfold slotOwner
  rw [h]
  rfl

theorem slotOwner_of_none {s : State} {n : SlotNo} (h : (s.slot n).channel = none) : s.slotOwner n = none := by
  unfold slotOwner
  rw [h]
  rfl

/-! ## JOIN -/

theorem judgeJoin_lead {s : State} (n : SlotNo) (label : Word) (h : s.cl.role = some .lead) :
    s.judgeJoin n label = (s, .decline .crossed) := if_pos h

/-- The slot is HELD by the channel with the label of the JOIN (R101). -/
def holdsLabel (s : State) (n : SlotNo) (label : Word) : Prop :=
  (s.slot n).state = .held ∧ ∃ c, (s.slot n).channel = some c ∧ (s.channel c).label = some label

theorem slotOwner_label_iff (s : State) (n : SlotNo) (label : Word) :
    ((s.slot n).state = .held ∧ (s.slotOwner n).bind (fun p => p.2.label) = some label) ↔ s.holdsLabel n label := by
  unfold holdsLabel
  cases h : (s.slot n).channel with
  | none => rw [slotOwner_of_none h]; simp
  | some c => rw [slotOwner_of_some h]; simp

section
variable {s : State} {n : SlotNo} {label : Word} (hrole : s.cl.role ≠ some .lead)
include hrole

theorem judgeJoin_mine (h : s.holdsLabel n label) : s.judgeJoin n label = (s, .agree) := by
  unfold judgeJoin
  dsimp only
  rw [if_neg hrole, if_pos ((slotOwner_label_iff _ _ _).mpr h)]

theorem judgeJoin_unknown (h : ¬ s.holdsLabel n label) (hnone : s.channelOfLabel label = none) :
    s.judgeJoin n label = (s, .decline .unknown) := by
  unfold judgeJoin
  dsimp only
  rw [if_neg hrole, if_neg ((not_congr (slotOwner_label_iff _ _ _)).mpr h), hnone]

variable {c : Channel} (h : ¬ s.holdsLabel n label) (hc : s.channelOfLabel label = some c)
include h hc

theorem judgeJoin_busy (hstate : (s.slot n).state ≠ .free) : s.judgeJoin n label = (s, .decline .slotBusy) := by
  unfold judgeJoin
  dsimp only
  rw [if_neg hrole, if_neg ((not_congr (slotOwner_label_iff _ _ _)).mpr h), hc]
  exact if_pos hstate

variable (hstate : (s.slot n).state = .free)
include hstate

/-- A JOIN for a FREE slot goes by the phase of its channel (R101). -/
theorem judgeJoin_free : s.judgeJoin n label =
    match (s.channel c).phase with
    | .joining =>
      match s.claimJoinAgreed c n with
      | some t => (t, .agree)
      | none => (s, .decline .notReady)
    | .enrolled =>
      match s.assignByJoin c n with
      | some t => (t, .agree)
      | none => (s, .decline .notReady)
    | .retiring => (s, .decline .retired)
    | .retired => (s, .decline .retired)
    | .recalling => (s, .decline .retired)
    | .stranded => (s, .decline .retired)
    | _ => (s, .decline .notReady) := by
  unfold judgeJoin
  dsimp only
  rw [if_neg hrole, if_neg ((not_congr (slotOwner_label_iff _ _ _)).mpr h), hc]
  exact if_neg fun h => h hstate

theorem judgeJoin_joining (hphase : (s.channel c).phase = .joining) {u : State}
    (hu : s.claimJoinAgreed c n = some u) : s.judgeJoin n label = (u, .agree) := by
  rw [judgeJoin_free hrole h hc hstate, hphase]
  dsimp only
  rw [hu]

theorem judgeJoin_enrolled (hphase : (s.channel c).phase = .enrolled) {u : State}
    (hu : s.assignByJoin c n = some u) : s.judgeJoin n label = (u, .agree) := by
  rw [judgeJoin_free hrole h hc hstate, hphase]
  dsimp only
  rw [hu]

theorem judgeJoin_no_context (hphase : (s.channel c).phase = .enrolled) (hu : s.assignByJoin c n = none) :
    s.judgeJoin n label = (s, .decline .notReady) := by
  rw [judgeJoin_free hrole h hc hstate, hphase]
  dsimp only
  rw [hu]

theorem judgeJoin_retired (hphase : (s.channel c).phase.inRetiredGroup = true) :
    s.judgeJoin n label = (s, .decline .retired) := by
  rw [judgeJoin_free hrole h hc hstate]
  revert hphase
  cases (s.channel c).phase <;> first | exact fun _ => rfl | exact nofun

theorem judgeJoin_not_ready (hphase : (s.channel c).phase.inRetiredGroup = false)
    (hjoining : (s.channel c).phase ≠ .joining) (henrolled : (s.channel c).phase ≠ .enrolled) :
    s.judgeJoin n label = (s, .decline .notReady) := by
  rw [judgeJoin_free hrole h hc hstate]
  revert hphase hjoining henrolled
  cases (s.channel c).phase
  case joining => exact fun _ h => absurd rfl h
  case enrolled => exact fun _ _ h => absurd rfl h
  case retiring | retired | recalling | stranded => exact nofun
  all_goals exact fun _ _ _ => rfl

end

/-- A channel outside COPPER that holds a label (R22). -/
def owns (s : State) (label : Word) (c : Channel) : Prop :=
  ∃ p ∈ s.cm, p.1 = c ∧ p.2.phase ≠ .copper ∧ p.2.label = some label

theorem owns_of_channelOfLabel {s : State} {label : Word} {c : Channel} (h : s.channelOfLabel label = some c) :
    s.owns label c := by
  unfold channelOfLabel at h
  obtain ⟨p, hp, rfl⟩ := Option.map_eq_some_iff.mp h
  have htest := List.find?_some hp
  simp only [Bool.and_eq_true, decide_eq_true_eq] at htest
  exact ⟨p, List.mem_of_find?_eq_some hp, rfl, htest⟩

theorem channelOfLabel_eq_some {s : State} {label : Word} {c : Channel} (hc : s.owns label c)
    (hsingle : ∀ d, s.owns label d → d = c) : s.channelOfLabel label = some c := by
  cases h : s.channelOfLabel label with
  | some d => rw [hsingle d (owns_of_channelOfLabel h)]
  | none =>
    obtain ⟨p, hp, -, hphase, hlabel⟩ := hc
    have hsome := (channelOfLabel_isSome s label).mpr ⟨p, hp, hphase, hlabel⟩
    rw [h] at hsome
    cases hsome

theorem channelOfLabel_eq_none {s : State} {label : Word} (h : ∀ c, ¬ s.owns label c) :
    s.channelOfLabel label = none := by
  cases hc : s.channelOfLabel label with
  | none => rfl
  | some c => exact absurd (owns_of_channelOfLabel hc) (h c)

/-- The assign-by-JOIN claim (R30, R51), as one equation. -/
theorem assignByJoin_eq {s : State} {c : Channel} {k : CtxNo} (n : SlotNo) (hk : s.lowestFreeContext = some k)
    (hphase : (s.channel c).phase = .enrolled) : s.assignByJoin c n = some { s with
      cm := Assoc.put s.cm c { (s.channel c).moved .shadow .pass .pass .shadow with
        slot := some n, context := some k, lag := 0 }
      cp := ⟨Assoc.put s.cp.contexts k (Context.fresh c), s.cp.queue.filter fun x => decide (x ≠ c)⟩
      sn := { s.sn with slots := Assoc.put s.sn.slots n ((s.slot n).given .held c) }
      du := s.du.raised .joined c } := by
  unfold assignByJoin
  rw [hk]
  dsimp only
  rw [if_pos hphase, raise_eq]
  rfl

theorem assignByJoin_none {s : State} (c : Channel) (n : SlotNo) (h : s.lowestFreeContext = none) :
    s.assignByJoin c n = none := by
  unfold assignByJoin
  rw [h]

/-! ## CUT -/

theorem isOutstanding_iff (s : State) (k : NoticeKind) (c : Channel) :
    s.isOutstanding k c = true ↔ s.outstandingWithout k c ≠ s.sn.outstanding := by
  unfold isOutstanding outstandingWithout
  cases s.sn.outstanding with
  | none => simp
  | some o => by_cases h : o.kind = k ∧ o.channel = c <;> simp [h]

theorem outstandingWithout_of_isOutstanding {s : State} {k : NoticeKind} {c : Channel}
    (h : s.isOutstanding k c = true) : s.outstandingWithout k c = none := by
  unfold isOutstanding at h
  unfold outstandingWithout
  cases ho : s.sn.outstanding with
  | none => rfl
  | some o =>
    rw [ho] at h
    exact if_pos (by simpa using h)

theorem judgeCut_not_held {s : State} {n : SlotNo} (countdown : Nat) (h : (s.slot n).state ≠ .held) :
    s.judgeCut n countdown = (s, .decline .notProven) := by
  unfold judgeCut
  dsimp only
  split
  next hstate _ => exact absurd hstate h
  next => rfl

section
variable {s : State} {n : SlotNo} {c : Channel} (countdown : Nat) (hstate : (s.slot n).state = .held)
  (hc : (s.slot n).channel = some c)
include hstate hc

/-- A CUT for a HELD slot goes by the phase of its channel (R102). -/
theorem judgeCut_held : s.judgeCut n countdown =
    match (s.channel c).phase with
    | .proven => s.agreeCut c n (max 1 countdown)
    | .cutting =>
      if s.isOutstanding .cut c = true then
        if s.cl.role = some .lead then (s, .decline .crossed)
        else (s.clearOutstanding).agreeCut c n (max 1 countdown)
      else s.agreeCut c n (max 1 countdown)
    | .carried => (s, .agree)
    | .retiring => (s, .decline .retired)
    | .retired => (s, .decline .retired)
    | .recalling => (s, .decline .retired)
    | .stranded => (s, .decline .retired)
    | _ => (s, .decline .notProven) := by
  unfold judgeCut
  dsimp only
  rw [hstate, slotOwner_of_some hc] <;> rfl

omit hstate hc in
theorem claimPeerCut_cutting (hphase : (s.channel c).phase = .cutting) (hslot : (s.channel c).slot = some n) :
    s.claimPeerCut c n = some (s.removeQueued .cut c) := by
  unfold claimPeerCut
  rw [if_pos hslot, hphase]

theorem judgeCut_proven (hphase : (s.channel c).phase = .proven) (hslot : (s.channel c).slot = some n) :
    s.judgeCut n countdown = ((s.modChannel c fun r => r.enter .cutting).schedule c n (max 1 countdown), .agree) := by
  have hclaim : s.claimPeerCut c n = some (s.modChannel c fun r => r.enter .cutting) := by
    unfold claimPeerCut
    rw [if_pos hslot, hphase]
  rw [judgeCut_held countdown hstate hc, hphase]
  dsimp only
  unfold agreeCut
  rw [hclaim]

/-- A CUT for a CUTTING channel that is agreed withdraws the own CUT (R102). -/
theorem judgeCut_cutting (hphase : (s.channel c).phase = .cutting) (hslot : (s.channel c).slot = some n)
    (hrole : ¬ (s.isOutstanding .cut c = true ∧ s.cl.role = some .lead)) :
    s.judgeCut n countdown = ((s.withdrawNotice .cut c).schedule c n (max 1 countdown), .agree) := by
  rw [judgeCut_held countdown hstate hc, hphase]
  dsimp only
  unfold withdrawNotice
  dsimp only
  by_cases hout : s.isOutstanding .cut c = true
  · rw [if_pos hout, if_neg fun h => hrole ⟨hout, h⟩, if_pos hout]
    unfold agreeCut
    rw [claimPeerCut_cutting (s := s.clearOutstanding) hphase hslot]
    rfl
  · rw [if_neg hout, if_neg hout]
    unfold agreeCut
    rw [claimPeerCut_cutting hphase hslot]

theorem judgeCut_crossed (hphase : (s.channel c).phase = .cutting) (hout : s.isOutstanding .cut c = true)
    (hrole : s.cl.role = some .lead) : s.judgeCut n countdown = (s, .decline .crossed) := by
  rw [judgeCut_held countdown hstate hc, hphase]
  dsimp only
  rw [if_pos hout, if_pos hrole]

theorem judgeCut_carried (hphase : (s.channel c).phase = .carried) : s.judgeCut n countdown = (s, .agree) := by
  rw [judgeCut_held countdown hstate hc, hphase]

theorem judgeCut_retired (hphase : (s.channel c).phase.inRetiredGroup = true) :
    s.judgeCut n countdown = (s, .decline .retired) := by
  rw [judgeCut_held countdown hstate hc]
  revert hphase
  cases (s.channel c).phase <;> first | exact fun _ => rfl | exact nofun

theorem judgeCut_not_proven (hphase : (s.channel c).phase ∈ [.shadow, .fallen, .leaving]) :
    s.judgeCut n countdown = (s, .decline .notProven) := by
  rw [judgeCut_held countdown hstate hc]
  simp only [List.mem_cons, List.not_mem_nil, or_false] at hphase
  obtain h | h | h := hphase <;> rw [h]

end

/-! ## LEAVE -/

theorem judgeLeave_no_owner {s : State} {n : SlotNo} (h : (s.slot n).channel = none) :
    s.judgeLeave n = (s, .agree) := by
  unfold judgeLeave
  rw [slotOwner_of_none h]

theorem judgeLeave_not_held {s : State} {n : SlotNo} (hheld : (s.slot n).state ≠ .held)
    (hreleasing : (s.slot n).state ≠ .releasing) : s.judgeLeave n = (s, .agree) := by
  unfold judgeLeave
  cases s.slotOwner n with
  | none => rfl
  | some p =>
    dsimp only
    rw [if_neg fun h => hheld h.1, if_neg fun h => h.1.elim hheld hreleasing, if_neg fun h => hheld h.1]

section
variable {s : State} {n : SlotNo} {c : Channel} (hc : (s.slot n).channel = some c)
include hc

theorem judgeLeave_group (hstate : (s.slot n).state = .held) (hphase : (s.channel c).phase.inGroup = true) {u : State}
    (hu : s.claimGone c n .peerLeft = some u) : s.judgeLeave n = (u, .agree) := by
  unfold judgeLeave
  rw [slotOwner_of_some hc]
  dsimp only
  rw [if_pos ⟨hstate, hphase⟩, hu]
  rfl

theorem judgeLeave_leaving (hstate : (s.slot n).state = .held ∨ (s.slot n).state = .releasing)
    (hphase : (s.channel c).phase = .leaving) {u : State} (hu : s.claimLeaveResolved c n false = some u) :
    s.judgeLeave n = (u, .agree) := by
  unfold judgeLeave
  rw [slotOwner_of_some hc]
  dsimp only
  rw [if_neg (by rw [hphase]; exact nofun), if_pos ⟨hstate, hphase⟩, hu]
  rfl

theorem judgeLeave_retired (hstate : (s.slot n).state = .held) (hphase : (s.channel c).phase.inRetiredGroup = true) :
    s.judgeLeave n = (s, .decline .retired) := by
  have hgroup := inGroup_of_inRetiredGroup hphase
  unfold judgeLeave
  rw [slotOwner_of_some hc]
  dsimp only
  rw [if_neg (by rw [hgroup.1]; exact nofun), if_neg fun h => hgroup.2 h.2, if_pos ⟨hstate, hphase⟩]

end

end State

/-- Settles O54: the claims due by `takeReplyClaims_of_last`, and each notice by the row of its table. -/
theorem peerNoticesAreAnsweredOnce : Obligations.PeerNoticesAreAnsweredOnce := by
  refine ⟨fun f k front d s hdue hfront hd hk hnew i hi => ?_, fun f s hdue => ?_⟩
  · have hmem : d ∈ s.due := by rw [hdue]; exact List.mem_append_right _ (List.mem_singleton_self d)
    have hnot : d ∉ front := fun h => by
      obtain ⟨c, rfl⟩ | ⟨c, n, rfl⟩ := hd
      · exact (hfront _ h).1 c rfl
      · exact (hfront _ h).2 c n rfl
    have herase : s.due.erase d = front := by
      rw [hdue, List.erase_append_right _ hnot, List.erase_cons_head, List.append_nil]
    obtain ⟨hleft, hpeer⟩ := State.effect_replyClaim_keeps { s with due := front } hd
    refine ⟨effect d { s with due := front }, by rw [exec_due hi hmem, herase], hleft, hpeer, ?_⟩
    rw [State.takeNotice_new hk hnew, State.takeReplyClaims_of_last hdue hfront hd,
      State.takeNotice_new hk (by rw [hpeer]; exact hnew), State.takeReplyClaims_of_none (by rw [hleft]; exact hfront)]
  intro n e answered new owns single retiredGroup noticesKept mine
  have hclaims := State.takeReplyClaims_of_none hdue
  have hnew {k : NoticeKind} (h : new k) : s.takeNotice f = s.judgeNotice k f := by
    rw [State.takeNotice_new h.1 h.2, hclaims]
  have hjoin {u : State} {reply : Reply} (h : new .join) (hj : s.judgeJoin n f.label = (u, reply)) :
      answered .join u reply := (hnew h).trans (State.judgeNotice_join hj)
  have hcut {u : State} {reply : Reply} (h : new .cut) (hj : s.judgeCut n f.countdown.toNat = (u, reply)) :
      answered .cut u reply := (hnew h).trans (State.judgeNotice_cut hj)
  have hleave {u : State} {reply : Reply} (h : new .leave) (hj : s.judgeLeave n = (u, reply)) :
      answered .leave u reply := (hnew h).trans (State.judgeNotice_leave hj)
  refine ⟨State.takeNotice_none, fun k p hk hp hnumber hkind hslot => ?_, fun h hrole => ?_, fun h hrole => ?_,
    fun h hstate => ?_, fun c h hstate hc hslot => ?_, fun h hnone => ?_, fun c h hc hslot => ?_⟩
  · exact State.takeNotice_repeat hk hp ((State.isRepeat_iff _ _ _).mpr ⟨hnumber, hkind, hslot⟩)
  · exact hjoin h (State.judgeJoin_lead n f.label hrole)
  · refine ⟨fun hmine => hjoin h (State.judgeJoin_mine hrole hmine), fun hmine hnone => ?_,
      fun c hmine _ hsingle hc => ?_⟩
    · exact hjoin h (State.judgeJoin_unknown hrole hmine (State.channelOfLabel_eq_none hnone))
    · have hlabel : s.channelOfLabel f.label = some c :=
        State.channelOfLabel_eq_some hc fun d hd => hsingle d c hd hc
      have hfree {k : CtxNo} (hk : s.context k = none) (hbelow : ∀ j, j < k → s.context j ≠ none) :=
        State.lowestFreeContext_eq_some hk hbelow
      refine ⟨fun hstate => ?_, fun hstate hphase => ?_, fun hstate hphase hfull => ?_,
        fun k hstate hphase hk hbelow => ?_, fun hstate hphase => ?_, fun hstate hphase hjoining henrolled => ?_⟩
      · exact hjoin h (State.judgeJoin_busy hrole hmine hlabel hstate)
      · refine ⟨_, hjoin h (State.judgeJoin_joining hrole hmine hlabel hstate hphase (State.claimJoinAgreed_eq n hphase)),
          State.channel_put (s := s) rfl, State.keepsOtherChannels_put rfl, State.slot_put (s := s) rfl,
          State.keepsOtherSlots_put rfl, rfl, rfl, ⟨rfl, rfl, rfl, rfl⟩, fun j hj => ?_, fun k x hk hx => ?_,
          State.claimFrame_raised _ _ _⟩
        · exact State.context_contextsChanged_other (s := s) _ hj
        · exact State.context_contextsChanged_same (s := s) _ hk hx
      · exact hjoin h (State.judgeJoin_no_context hrole hmine hlabel hstate hphase
          (State.assignByJoin_none c n (State.lowestFreeContext_eq_none hfull)))
      · exact ⟨_, hjoin h (State.judgeJoin_enrolled hrole hmine hlabel hstate hphase
            (State.assignByJoin_eq n (hfree hk hbelow) hphase)),
          State.channel_put (s := s) rfl, State.keepsOtherChannels_put rfl, State.slot_put (s := s) rfl,
          State.keepsOtherSlots_put rfl, rfl, rfl, Assoc.find_put_same _ _ _,
          fun j hj => Assoc.find_put_other _ _ fun e => hj (congrArg some e), ⟨rfl, rfl, rfl, rfl⟩,
          State.claimFrame_raised _ _ _⟩
      · exact hjoin h (State.judgeJoin_retired hrole hmine hlabel hstate ((inRetiredGroup_iff _).mpr hphase))
      · exact hjoin h (State.judgeJoin_not_ready hrole hmine hlabel hstate
          (Bool.eq_false_iff.mpr ((not_congr (inRetiredGroup_iff _)).mpr hphase)) hjoining henrolled)
  · exact hcut h (State.judgeCut_not_held _ hstate)
  · intro r crossed
    refine ⟨fun hphase => ?_, fun hcrossed hrole => ?_, fun hphase => ?_, fun hphase => ?_, fun hphase => ?_⟩
    · obtain hphase | ⟨hphase, hnot⟩ := hphase
      · refine ⟨_, hcut h (State.judgeCut_proven _ hstate hc hphase hslot), ?_, State.keepsOtherChannels_put (s := s) rfl,
          ?_, ?_, Assoc.find_put_same _ _ _, fun d hd => Assoc.find_put_other _ _ hd, rfl, rfl, rfl, rfl⟩
        · rw [if_pos hphase]
          exact State.channel_put (s := s) rfl
        · rw [if_pos hphase]
          rfl
        · rw [if_pos hphase]
          rfl
      · have hne : r.phase ≠ .proven := by rw [hphase]; exact Phase.noConfusion
        refine ⟨_, hcut h (State.judgeCut_cutting _ hstate hc hphase hslot fun ⟨hout, hrole⟩ =>
          hnot ⟨⟨hphase, (State.isOutstanding_iff _ _ _).mp hout⟩, hrole⟩), ?_⟩
        rw [State.withdrawNotice_eq, if_neg hne, if_neg hne, if_neg hne]
        exact ⟨rfl, fun _ _ => rfl, rfl, rfl, Assoc.find_put_same _ _ _, fun d hd => Assoc.find_put_other _ _ hd, rfl, rfl,
          rfl, rfl⟩
    · exact hcut h (State.judgeCut_crossed _ hstate hc hcrossed.1 ((State.isOutstanding_iff _ _ _).mpr hcrossed.2) hrole)
    · exact hcut h (State.judgeCut_carried _ hstate hc hphase)
    · exact hcut h (State.judgeCut_retired _ hstate hc ((inRetiredGroup_iff _).mpr hphase))
    · exact hcut h (State.judgeCut_not_proven _ hstate hc hphase)
  · obtain hnone | hstate := hnone
    · exact hleave h (State.judgeLeave_no_owner hnone)
    · simp only [List.mem_cons, List.not_mem_nil, or_false] at hstate
      refine hleave h (State.judgeLeave_not_held ?_ ?_)
      · obtain h | h | h := hstate <;> exact fun h' => SlotState.noConfusion (h.symm.trans h')
      · obtain h | h | h := hstate <;> exact fun h' => SlotState.noConfusion (h.symm.trans h')
  · refine ⟨fun hstate hphase => ?_, fun hstate hphase => ?_, fun hstate hphase => ?_⟩
    · have hgroup := (inGroup_iff _).mpr hphase
      obtain ⟨u, hu⟩ := State.claimGone_isSome .peerLeft ⟨hgroup, hslot⟩
      obtain ⟨-, -, hrecord, hothers, hcontext, hfreed, hproof, hqueue, hout, hschedule, hdu, hframe, -⟩ :=
        State.claimGone_spec hu
      exact ⟨u, hleave h (State.judgeLeave_group hc hstate hgroup hu), hrecord, hothers, hcontext, hfreed, hqueue, hproof,
        hout, hschedule, hdu, hframe⟩
    · obtain ⟨u, hu⟩ := State.claimLeaveResolved_isSome false ⟨hphase, hslot⟩
      obtain ⟨-, -, hrecord, hothers, hcp, hfreed, hslots, hqueue, hout, -, hdu, hframe, -⟩ :=
        State.claimLeaveResolved_spec hu
      refine ⟨u, hleave h (State.judgeLeave_leaving hc hstate hphase hu), hrecord, hothers, ⟨fun m hm => ?_, hslots⟩, hqueue,
        hout, hcp, hdu, hframe⟩
      cases hm
      exact hfreed
    · exact hleave h (State.judgeLeave_retired hc hstate ((inRetiredGroup_iff _).mpr hphase))

end Sys2Proof.Machine
end

section
/-! SUPPORT. The write of a record and its stages (R142, R144 to R149), and the statements that they settle. -/

namespace Sys2Proof.Machine

/-! ## The record written -/

/-- The state byte of the record that a write serves (R142, R144). -/
def writtenState (r : WriteRequest) (p : Purpose) : Byte :=
  if decide (r.kind = .retire) = decide (p = .target) then retiredByte else 0#8

theorem writtenRecord_eq (r : WriteRequest) (p : Purpose) : writtenRecord r p = recordOf (writtenState r p) r := by
  unfold writtenRecord writtenState retiredRecord voidRecord
  obtain ⟨kind, c, n, l, i⟩ := r
  cases p <;> cases kind <;> rfl

/-- A record with its check byte sums to 0 with the slot's low byte (R177). -/
theorem sum_recordOf (state : Byte) (r : WriteRequest) :
    (((recordOf state r).map BitVec.toNat).sum + r.slot.val % 256) % 256 = 0 := by
  have hzero : byteSum (recordOf state r) + slotByte r.slot = 0#8 := by
    unfold recordOf
    dsimp only
    rw [byteSum_append_singleton]
    unfold recordCheckByte
    bv_omega
  have h := congrArg BitVec.toNat hzero
  rw [BitVec.toNat_add, toNat_byteSum] at h
  unfold slotByte at h
  simp only [BitVec.toNat_ofNat] at h
  omega

theorem extractLsb'_append_pattern (p : Pattern) :
    ((0#4 ++ p : Word).extractLsb' 8 8 = 0#4 ++ p.extractLsb' 8 4) ∧ (0#4 ++ p : Word).extractLsb' 0 8 = p.extractLsb' 0 8 := by
  constructor
  · apply BitVec.eq_of_getLsbD_eq
    intro i hi
    simp only [BitVec.getLsbD_extractLsb', BitVec.getLsbD_append, BitVec.getLsbD_zero]
    by_cases h : i < 4
    · simp [h, show 8 + i < 12 by omega, hi]
    · simp [h, show ¬ 8 + i < 12 by omega]
  · apply BitVec.eq_of_getLsbD_eq
    intro i hi
    simp only [BitVec.getLsbD_extractLsb', BitVec.getLsbD_append, BitVec.getLsbD_zero]
    simp [show i < 12 by omega]

/-- The bytes of a record before its check byte (R142). -/
def recordBody (state : Byte) (r : WriteRequest) : List Byte :=
  state :: (wordBytes (BitVec.ofNat 16 r.channel.val) ++ wordBytes r.label ++ wordBytes (0#4 ++ r.idle))

/-- The bytes of a record, as the statements write them. -/
theorem recordOf_eq (state : Byte) (r : WriteRequest) : recordOf state r =
    let number : Word := BitVec.ofNat 16 r.channel.val
    [state, number.extractLsb' 8 8, number.extractLsb' 0 8, r.label.extractLsb' 8 8, r.label.extractLsb' 0 8,
      0#4 ++ r.idle.extractLsb' 8 4, r.idle.extractLsb' 0 8, recordCheckByte r.slot (recordBody state r)] := by
  obtain ⟨hhigh, hlow⟩ := extractLsb'_append_pattern r.idle
  rw [← hhigh, ← hlow]
  rfl

namespace State

/-! ## The rows of a write -/

theorem flightIn_of_steady {s : State} {f : Flight} (h : s.steady) (hf : s.sc.flight = some f) :
    s.flightIn f.stage = some f := by
  obtain ⟨hpart, hreset, -⟩ := h
  unfold flightIn
  rw [hf]
  exact if_pos ⟨hpart, hreset, rfl⟩

theorem flightIn_other {s : State} {f : Flight} {stage : Stage} (hf : s.sc.flight = some f) (h : f.stage ≠ stage) :
    s.flightIn stage = none := by
  unfold flightIn
  rw [hf]
  exact if_neg fun h' => h h'.2.2

/-- What a failed attempt leaves of the flight (R148). -/
def failedFlight (f : Flight) : Flight :=
  if f.purpose = .target then { f with purpose := .reinstatement, stage := .program } else { f with stage := .pause 160 }

theorem attemptFailed_eq (s : State) (f : Flight) :
    s.attemptFailed f = { s with sc := { s.sc with fault := true, flight := some (failedFlight f) } } := by
  unfold attemptFailed failedFlight
  cases f.purpose <;> rfl

/-- A page being programmed is finished (R145), as the statements write it. -/
theorem commit_eq (x : RetirementStore) : x.commit = ⟨match x.programming with
    | none => x.cells
    | some (n, bytes) => x.cells.writeBytes (64 + 8 * n.val) bytes, none⟩ := by
  obtain ⟨cells, programming⟩ := x
  cases programming <;> rfl

section
variable {s : State} {f : Flight} (h : s.steady) (hf : s.sc.flight = some f)
include h hf

theorem exec_pageWriteEnd (hstage : f.stage = .program) : exec .pageWriteEnd s = .next (s.endPageWrite f) := by
  show Host.Outcome.next s.settled.pageWriteEnd = _
  rw [settled_of_due_nil h.2.2]
  unfold pageWriteEnd
  rw [← hstage, flightIn_of_steady h hf]

theorem exec_storePoll (hstage : f.stage = .poll) (answer : PollAnswer) :
    exec (.storePoll answer) s = .next (s.pollStore f answer) := by
  show Host.Outcome.next (s.settled.storePoll answer) = _
  rw [settled_of_due_nil h.2.2]
  unfold storePoll
  rw [← hstage, flightIn_of_steady h hf]

theorem exec_pollTimeout (hstage : f.stage = .poll) : exec .pollTimeout s = .next ((s.drive []).attemptFailed f) := by
  show Host.Outcome.next s.settled.pollTimeout = _
  rw [settled_of_due_nil h.2.2]
  unfold pollTimeout
  rw [← hstage, flightIn_of_steady h hf]

theorem exec_storeVerify (hstage : f.stage = .verify) (disturbed : BitVec 64) :
    exec (.storeVerify disturbed) s = .next (s.verifyStore f disturbed) := by
  show Host.Outcome.next (s.settled.storeVerify disturbed) = _
  rw [settled_of_due_nil h.2.2]
  unfold storeVerify
  rw [← hstage, flightIn_of_steady h hf]

/-- The transfer of a write in flight. -/
theorem transfer_of_flight : s.transfer = f.transfer := by
  obtain ⟨hpart, hreset, -⟩ := h
  unfold transfer
  rw [hreset, hpart, hf]
  rfl

/-- MISSING_ACK at each point of the transfer of a write. -/
theorem endsAtTheFault_of_flight {transfer : List LineEvent} {failed : MissingAck → List LineEvent → State}
    (htransfer : f.transfer = transfer) (hfailed : ∀ fault sent,
      State.writeMissingAck { s with store := s.storeAt fault.place } f sent = failed fault sent) :
    s.transfer = transfer ∧ s.endsAtTheFault transfer failed := by
  have htransfer := (transfer_of_flight h hf).trans htransfer
  refine ⟨htransfer, endsAtTheFault_of_missingAck h.2.2 htransfer fun fault sent hcut => ?_⟩
  rw [missingAck_running (htransfer ▸ hcut) h.1 hf]
  exact hfailed fault sent

end

end State

/-- Settles O56: the record by `writtenRecord_eq`, each row of a write, and the faults by `endsAtTheFault_of_flight`. -/
theorem storeWriteGoesThroughItsStages : Obligations.StoreWriteGoesThroughItsStages := by
  refine ⟨fun r p => ?_, fun r rest s hdue hflight hqueue => ?_, fun r p s hdue hflight => ?_, fun r p s hsteady => ?_⟩
  · have hbytes := (writtenRecord_eq r p).trans (recordOf_eq (writtenState r p) r)
    have hsum := sum_recordOf (writtenState r p) r
    rw [recordOf_eq] at hsum
    exact ⟨_, hbytes, hsum⟩
  · rw [exec_due rfl hdue]
    show Host.Outcome.next (State.takeStoreWriteStart _) = _
    unfold State.takeStoreWriteStart
    dsimp only
    rw [hflight, hqueue]
  · rw [exec_due rfl hdue]
    show Host.Outcome.next (State.takeReinstatementRetry _) = _
    unfold State.takeReinstatementRetry
    dsimp only
    rw [hflight]
    rfl
  · intro flight failed address page finished back
    have hpage : (⟨r, p, .program⟩ : Flight).transfer = page := pageWriteLine_eq r.slot (writtenRecord r p)
    have hback : (⟨r, p, .verify⟩ : Flight).transfer = back := readBackLine_eq r.slot
    have hcommit : s.store.commit = ⟨finished, none⟩ := State.commit_eq s.store
    have hfailed (stage : Stage) (line : List LineEvent) : (s.drive line).attemptFailed ⟨r, p, stage⟩ = failed line :=
      State.attemptFailed_eq _ _
    refine ⟨fun hf => ?_, fun hf => ⟨?_, fun wrong bytes hb => ?_, ?_⟩, fun hf => ?_, fun hf => ?_, fun hf => ?_⟩
    · rw [State.exec_pageWriteEnd hsteady hf rfl]
      unfold State.endPageWrite
      dsimp only
      rw [hcommit, ← hpage]
      rfl
    · rw [State.exec_storePoll hsteady hf rfl]
      rfl
    · rw [State.exec_storePoll hsteady hf rfl]
      unfold State.pollStore RetirementStore.commitWith
      dsimp only
      rw [hb]
      rfl
    · rw [State.exec_pollTimeout hsteady hf rfl, hfailed]
    · refine State.endsAtTheFault_of_flight hsteady hf hpage fun fault sent => ?_
      have hstore : s.storeAt fault.place = if 2 ≤ fault.place then ⟨finished, none⟩ else s.store := by
        by_cases h : 2 ≤ fault.place
        · rw [storeAt_of_page (State.flightIn_of_steady hsteady hf) h, if_pos h, hcommit]
        · rw [storeAt_of_lt (Nat.lt_of_not_le h), if_neg h]
      rw [hstore]
      exact State.attemptFailed_eq _ _
    · refine State.endsAtTheFault_of_flight hsteady hf rfl fun fault sent => ?_
      rw [storeAt_of_no_page _ (State.flightIn_other hf Stage.noConfusion)]
      rfl
    · refine State.endsAtTheFault_of_flight hsteady hf hback fun fault sent => ?_
      rw [storeAt_of_no_page _ (State.flightIn_other hf Stage.noConfusion)]
      exact hfailed .verify _

/-! ## The claims of a verified write -/

namespace State

/-- A channel settled after a write: its record, its event, and its place in the proof queue if it falls (R37, R38). -/
def settledAs (s : State) (c : Channel) (y : ChannelRecord) (event : EventKind) (falls : Bool) : State :=
  { s with
    cm := Assoc.put s.cm c y
    cp := { s.cp with queue := if falls = true then s.cp.queue ++ [c] else s.cp.queue }
    du := s.du.raised event c }

/-- A channel's record in FALLEN (R37, R38, R40). -/
def fallenRecord (r : ChannelRecord) : ChannelRecord :=
  { r.moved .fallen .pass .pass .shadow with collapsed := false, cause := none, origin := none }

/-- A channel's record in collapsed CARRIED (R37, R38). -/
def collapsedRecord (r : ChannelRecord) : ChannelRecord := { r.moved .carried .fibre .pass .live with collapsed := true }

section
variable {s : State} {c : Channel}

theorem claimStoreDone_retiring_up (h : (s.channel c).phase = .retiring) (hlink : s.cl.link = .up) :
    s.claimStoreDone c = some (s.settledAs c ((s.channel c).moved .retired .fibre .idle .live) .retired false) := by
  unfold claimStoreDone
  rw [h]
  dsimp only
  rw [if_pos ((linkIsUp_iff s).mpr hlink), raise_eq]
  rfl

theorem claimStoreDone_retiring_down (h : (s.channel c).phase = .retiring) (hlink : s.cl.link ≠ .up) :
    s.claimStoreDone c = some (s.settledAs c
      { (s.channel c).moved .stranded .idle .idle .live with cause := some .link } .retired false) := by
  unfold claimStoreDone
  rw [h]
  dsimp only
  rw [if_neg ((not_congr (linkIsUp_iff s)).mpr hlink), raise_eq]
  rfl

theorem claimStoreDone_recalling_up (h : (s.channel c).phase = .recalling)
    (horigin : (s.channel c).origin = some .retired) (hlink : s.cl.link = .up) : s.claimStoreDone c =
      some (s.settledAs c { collapsedRecord (s.channel c) with origin := none, cause := none } .recalled false) := by
  unfold claimStoreDone
  rw [h]
  dsimp only
  rw [if_pos ⟨horigin, (linkIsUp_iff s).mpr hlink⟩, raise_eq]
  rfl

theorem claimStoreDone_recalling_falls (h : (s.channel c).phase = .recalling)
    (hnot : ¬ ((s.channel c).origin = some .retired ∧ s.cl.link = .up)) :
    s.claimStoreDone c = some (s.settledAs c (fallenRecord (s.channel c)) .fallen true) := by
  unfold claimStoreDone
  rw [h]
  dsimp only
  rw [if_neg fun ⟨horigin, hlink⟩ => hnot ⟨horigin, (linkIsUp_iff s).mp hlink⟩, raise_eq]
  rfl

theorem claimStoreDone_stale (hretiring : (s.channel c).phase ≠ .retiring)
    (hrecalling : (s.channel c).phase ≠ .recalling) : s.claimStoreDone c = none := by
  unfold claimStoreDone
  split
  next h => exact absurd h hretiring
  next h => exact absurd h hrecalling
  next => rfl

theorem claimStoreFailed_retiring_up (h : (s.channel c).phase = .retiring) (hlink : s.cl.link = .up) :
    s.claimStoreFailed c = some (s.settledAs c (collapsedRecord (s.channel c)) .storeFailed false) := by
  unfold claimStoreFailed
  rw [h]
  dsimp only
  rw [if_pos ((linkIsUp_iff s).mpr hlink), raise_eq]
  rfl

theorem claimStoreFailed_retiring_down (h : (s.channel c).phase = .retiring) (hlink : s.cl.link ≠ .up) :
    s.claimStoreFailed c = some (s.settledAs c (fallenRecord (s.channel c)) .storeFailed true) := by
  unfold claimStoreFailed
  rw [h]
  dsimp only
  rw [if_neg ((not_congr (linkIsUp_iff s)).mpr hlink), raise_eq]
  rfl

theorem claimStoreFailed_recalling_up (h : (s.channel c).phase = .recalling)
    (horigin : (s.channel c).origin = some .retired) (hlink : s.cl.link = .up) : s.claimStoreFailed c =
      some (s.settledAs c { (s.channel c).moved .retired .fibre .idle .live with origin := none } .storeFailed false) := by
  unfold claimStoreFailed
  rw [h]
  dsimp only
  rw [if_pos horigin, if_pos ((linkIsUp_iff s).mpr hlink), raise_eq]
  rfl

theorem claimStoreFailed_recalling_down (h : (s.channel c).phase = .recalling)
    (horigin : (s.channel c).origin = some .retired) (hlink : s.cl.link ≠ .up) : s.claimStoreFailed c =
      some (s.settledAs c { (s.channel c).moved .stranded .idle .idle .live with
        origin := none, cause := some .link } .storeFailed false) := by
  unfold claimStoreFailed
  rw [h]
  dsimp only
  rw [if_pos horigin, if_neg ((not_congr (linkIsUp_iff s)).mpr hlink), raise_eq]
  rfl

theorem claimStoreFailed_recalling_stranded (h : (s.channel c).phase = .recalling)
    (horigin : (s.channel c).origin ≠ some .retired) : s.claimStoreFailed c = some (s.settledAs c
      { (s.channel c).moved .stranded .idle .idle .live with origin := none } .storeFailed false) := by
  unfold claimStoreFailed
  rw [h]
  dsimp only
  rw [if_neg horigin, raise_eq]
  rfl

theorem claimStoreFailed_stale (hretiring : (s.channel c).phase ≠ .retiring)
    (hrecalling : (s.channel c).phase ≠ .recalling) : s.claimStoreFailed c = none := by
  unfold claimStoreFailed
  split
  next h => exact absurd h hretiring
  next h => exact absurd h hrecalling
  next => rfl

end

/-- A claim that is stale, or that settles its channel. -/
def SettlesOrStale (s : State) (c : Channel) (o : Option State) : Prop :=
  o = none ∨ ∃ y event falls, o = some (s.settledAs c y event falls)

theorem claimStoreDone_settles (s : State) (c : Channel) : s.SettlesOrStale c (s.claimStoreDone c) := by
  by_cases hretiring : (s.channel c).phase = .retiring
  · by_cases hlink : s.cl.link = .up
    · exact .inr ⟨_, _, _, claimStoreDone_retiring_up hretiring hlink⟩
    · exact .inr ⟨_, _, _, claimStoreDone_retiring_down hretiring hlink⟩
  by_cases hrecalling : (s.channel c).phase = .recalling
  · by_cases h : (s.channel c).origin = some .retired ∧ s.cl.link = .up
    · exact .inr ⟨_, _, _, claimStoreDone_recalling_up hrecalling h.1 h.2⟩
    · exact .inr ⟨_, _, _, claimStoreDone_recalling_falls hrecalling h⟩
  exact .inl (claimStoreDone_stale hretiring hrecalling)

theorem claimStoreFailed_settles (s : State) (c : Channel) : s.SettlesOrStale c (s.claimStoreFailed c) := by
  by_cases hretiring : (s.channel c).phase = .retiring
  · by_cases hlink : s.cl.link = .up
    · exact .inr ⟨_, _, _, claimStoreFailed_retiring_up hretiring hlink⟩
    · exact .inr ⟨_, _, _, claimStoreFailed_retiring_down hretiring hlink⟩
  by_cases hrecalling : (s.channel c).phase = .recalling
  · by_cases horigin : (s.channel c).origin = some .retired
    · by_cases hlink : s.cl.link = .up
      · exact .inr ⟨_, _, _, claimStoreFailed_recalling_up hrecalling horigin hlink⟩
      · exact .inr ⟨_, _, _, claimStoreFailed_recalling_down hrecalling horigin hlink⟩
    · exact .inr ⟨_, _, _, claimStoreFailed_recalling_stranded hrecalling horigin⟩
  exact .inl (claimStoreFailed_stale hretiring hrecalling)

/-- The state in which the claim of a verified write is made (R147). -/
def landed (s : State) (p : Purpose) : State :=
  { s with sc := { s.sc with flight := none, fault := if p = .target then false else s.sc.fault } }

/-- The claim of a verified write (R147, R148). -/
def landingClaim (s : State) (p : Purpose) (c : Channel) : Option State :=
  match p with
  | .target => s.claimStoreDone c
  | .reinstatement => s.claimStoreFailed c

theorem landingClaim_settles (s : State) (p : Purpose) (c : Channel) : s.SettlesOrStale c (s.landingClaim p c) := by
  cases p
  · exact claimStoreDone_settles s c
  · exact claimStoreFailed_settles s c

theorem writeVerified_eq (s : State) (f : Flight) : s.writeVerified f =
    State.kickStore (((s.landed f.purpose).landingClaim f.purpose f.request.channel).getD (s.landed f.purpose)) := by
  unfold writeVerified landed landingClaim
  cases f.purpose <;> rfl

end State

/-- Settles O57: the claim by `landingClaim_settles`, and each of its cases. -/
theorem verifiedWriteSettlesItsChannel : Obligations.VerifiedWriteSettlesItsChannel := by
  intro r p disturbed s hsteady hf written equal x up
  have hequal : s.readBack r.slot written disturbed = written ↔ equal := readBack_eq_iff s r.slot written disturbed
  have hline : readBackLine r.slot = readBackEvents r.slot := readBackLine_eq r.slot
  rw [State.exec_storeVerify hsteady hf rfl]
  unfold State.verifyStore
  dsimp only
  rw [hline]
  refine ⟨fun hnot => ?_, fun heq => ?_⟩
  · rw [if_neg ((not_congr hequal).mpr hnot), State.attemptFailed_eq]
    exact ⟨_, rfl, rfl, rfl, rfl⟩
  · rw [if_pos (hequal.mpr heq), State.writeVerified_eq]
    let v : State := State.landed (s.drive (readBackEvents r.slot)) p
    have hkick (u : State) (hu : u.sc = v.sc ∧ u.due = s.due) : u.kickStore = { u with
        due := if s.sc.queue = [] then [] else [.storeWriteStart] } := by
      rw [State.kickStore_eq, hu.1, hu.2, hsteady.2.2, List.nil_append]
      by_cases hqueue : s.sc.queue = []
      · rw [if_pos hqueue, if_neg fun h => h.2 hqueue]
      · rw [if_neg hqueue, if_pos ⟨rfl, hqueue⟩]
    show ∃ t, Host.Outcome.next ((v.landingClaim p r.channel).getD v).kickStore = .next t ∧ _
    have hsettled {y : ChannelRecord} {event : EventKind} {falls : Bool}
        (h : v.landingClaim p r.channel = some (v.settledAs r.channel y event falls)) :
        ((v.landingClaim p r.channel).getD v).kickStore = { v.settledAs r.channel y event falls with
          due := if s.sc.queue = [] then [] else [.storeWriteStart] } := by
      rw [h]
      exact hkick _ ⟨rfl, rfl⟩
    have hstale (h : v.landingClaim p r.channel = none) : ((v.landingClaim p r.channel).getD v).kickStore = { v with
        due := if s.sc.queue = [] then [] else [.storeWriteStart] } := by
      rw [h]
      exact hkick _ ⟨rfl, rfl⟩
    let t : State := ((v.landingClaim p r.channel).getD v).kickStore
    have hkeeps : t.sc = v.sc ∧ t.ports = v.ports ∧ t.due = (if s.sc.queue = [] then [] else [.storeWriteStart]) ∧
        keepsOtherChannels r.channel s t ∧ { t with
          sc := s.sc, cm := s.cm, cp := { t.cp with queue := s.cp.queue }, du := s.du, ports := s.ports, due := s.due } =
          s := by
      obtain h | ⟨y, event, falls, h⟩ := State.landingClaim_settles v p r.channel
      · rw [show t = _ from hstale h]
        exact ⟨rfl, rfl, rfl, fun _ _ => rfl, rfl⟩
      · rw [show t = _ from hsettled h]
        exact ⟨rfl, rfl, rfl, State.keepsOtherChannels_put (s := s) rfl, rfl⟩
    have hbecame {y : ChannelRecord} {event : EventKind} {falls : Bool}
        (h : v.landingClaim p r.channel = some (v.settledAs r.channel y event falls)) : t.channel r.channel = y ∧
        t.du = s.du.raised event r.channel ∧
        t.cp.queue = if falls = true then s.cp.queue ++ [r.channel] else s.cp.queue := by
      rw [show t = _ from hsettled h]
      exact ⟨State.channel_put (s := s) rfl, rfl, rfl⟩
    obtain ⟨hsc, hports, hdue, hothers, hrest⟩ := hkeeps
    refine ⟨t, rfl, hsc, hports, hdue, hothers, hrest, ?_, ?_, ?_, ?_, ?_, ?_, ?_, ?_, ?_⟩
    · rintro rfl hphase hlink
      exact hbecame (State.claimStoreDone_retiring_up (s := v) hphase hlink)
    · rintro rfl hphase hlink
      exact hbecame (State.claimStoreDone_retiring_down (s := v) hphase hlink)
    · rintro rfl hphase horigin hlink
      exact hbecame (State.claimStoreDone_recalling_up (s := v) hphase horigin hlink)
    · rintro rfl hphase hnot
      refine hbecame (State.claimStoreDone_recalling_falls (s := v) hphase fun ⟨horigin, hlink⟩ => ?_)
      exact hnot.elim (fun h => RecallOrigin.noConfusion (Option.some.inj (h.symm.trans horigin))) fun h => h hlink
    · rintro rfl hphase hlink
      exact hbecame (State.claimStoreFailed_retiring_up (s := v) hphase hlink)
    · rintro rfl hphase hlink
      exact hbecame (State.claimStoreFailed_retiring_down (s := v) hphase hlink)
    · rintro rfl hphase horigin hlink
      exact hbecame (State.claimStoreFailed_recalling_up (s := v) hphase horigin hlink)
    · rintro rfl hphase horigin hlink
      exact hbecame (State.claimStoreFailed_recalling_down (s := v) hphase horigin hlink)
    · rintro rfl hphase horigin
      exact hbecame (State.claimStoreFailed_recalling_stranded (s := v) hphase fun h =>
        RecallOrigin.noConfusion (Option.some.inj (horigin.symm.trans h)))

end Sys2Proof.Machine
end

section
/-! SUPPORT. The hand-over of a copper word (R55 to R60), and the statement that it settles. -/

namespace Sys2Proof.Machine

/-! ## The scoreboard -/

/-- A run counter by its lag (R56). -/
theorem getD_compared_runs {x : Context} (word : Pattern) {l : Nat} (hdelay : l < x.delay.length)
    (hruns : l < x.runs.length) :
    (x.compared word).runs.getD l 0 = runAfter word (x.delay.getD l none) (x.runs.getD l 0) := by
  unfold Context.compared
  rw [List.getD_eq_getElem?_getD, List.getD_eq_getElem?_getD, List.getD_eq_getElem?_getD, List.getElem?_zipWith,
    List.getElem?_eq_getElem hdelay, List.getElem?_eq_getElem hruns]
  rfl

theorem length_compared_runs {x : Context} (word : Pattern) {n : Nat} (hdelay : x.delay.length = n)
    (hruns : x.runs.length = n) : (x.compared word).runs.length = n := by
  unfold Context.compared
  rw [List.length_zipWith, hdelay, hruns, Nat.min_self]

/-- Some entry of a delay line is a word exactly when some lag has one. -/
theorem any_isSome_iff {delay : List (Option Pattern)} {n : Nat} (h : delay.length = n) :
    delay.any Option.isSome = true ↔ ∃ l, l < n ∧ delay.getD l none ≠ none := by
  rw [List.any_eq_true]
  constructor
  · rintro ⟨e, he, hsome⟩
    obtain ⟨l, hl, rfl⟩ := List.mem_iff_getElem.mp he
    refine ⟨l, h ▸ hl, ?_⟩
    rw [List.getD_eq_getElem?_getD, List.getElem?_eq_getElem hl, Option.getD_some]
    exact Option.isSome_iff_ne_none.mp hsome
  · rintro ⟨l, hl, hne⟩
    rw [← h] at hl
    rw [List.getD_eq_getElem?_getD, List.getElem?_eq_getElem hl, Option.getD_some] at hne
    exact ⟨_, List.getElem_mem hl, Option.isSome_iff_ne_none.mpr hne⟩

/-- The proven lag is the smallest whose run is long enough (R57). -/
theorem provenLag_eq_some {y : Context} {proveRun : Nat} {l : Lag} (hlength : y.runs.length = 16)
    (hrun : proveRun ≤ y.runs.getD l.val 0) (hbelow : ∀ m, m < l.val → y.runs.getD m 0 < proveRun) :
    y.provenLag proveRun = some l := by
  have hl : l.val < y.runs.length := by rw [hlength]; exact l.isLt
  have hfirst : y.runs.findIdx? (fun r => decide (proveRun ≤ r)) = some l.val := by
    rw [List.findIdx?_eq_some_iff_getElem]
    refine ⟨hl, ?_, fun m hm => ?_⟩
    · rw [List.getD_eq_getElem?_getD, List.getElem?_eq_getElem hl, Option.getD_some] at hrun
      exact decide_eq_true hrun
    · have hm' := hbelow m hm
      rw [List.getD_eq_getElem?_getD, List.getElem?_eq_getElem (Nat.lt_trans hm hl), Option.getD_some] at hm'
      simpa using hm'
  unfold Context.provenLag
  rw [hfirst]
  exact congrArg some (Fin.ext (Nat.mod_eq_of_lt l.isLt))

theorem provenLag_eq_none {y : Context} {proveRun : Nat} (hlength : y.runs.length = 16)
    (h : ∀ m, m < 16 → y.runs.getD m 0 < proveRun) : y.provenLag proveRun = none := by
  have hnone : y.runs.findIdx? (fun r => decide (proveRun ≤ r)) = none := by
    rw [List.findIdx?_eq_none_iff]
    intro r hr
    obtain ⟨m, hm, rfl⟩ := List.mem_iff_getElem.mp hr
    have hm' := h m (hlength ▸ hm)
    rw [List.getD_eq_getElem?_getD, List.getElem?_eq_getElem hm, Option.getD_some] at hm'
    simpa using hm'
  unfold Context.provenLag
  rw [hnone]
  rfl

namespace State

/-- A context replaced, and steps brought due. -/
def contextJudged (s : State) (k : CtxNo) (y : Context) (due : List Due) : State :=
  { s with cp := { s.cp with contexts := Assoc.put s.cp.contexts k y }, due := s.due ++ due }

/-- What the scoreboard brings due (R56 to R58). -/
def proofDue (s : State) (c : Channel) (k : CtxNo) (x : Context) (word : Pattern) : List Due :=
  if x.delay.any Option.isSome = true then
    match (x.compared word).provenLag s.sc.params.proveRun with
    | some lag => [.proofSuccess c k lag]
    | none => if 4096 ≤ (x.compared word).activeSeen then [.proofFailure c k] else []
  else []

theorem prove_eq (s : State) (c : Channel) (k : CtxNo) (x : Context) (word : Pattern) :
    s.prove c k x word = s.contextJudged k (x.compared word) (s.proofDue c k x word) := by
  have hnone : s.setContext k (x.compared word) = s.contextJudged k (x.compared word) [] := by
    unfold contextJudged
    rw [List.append_nil]
    rfl
  unfold prove proofDue
  dsimp only
  by_cases hany : x.delay.any Option.isSome = true
  · rw [if_pos hany, if_pos hany]
    cases (x.compared word).provenLag s.sc.params.proveRun with
    | some lag => rfl
    | none =>
      dsimp only
      by_cases hlimit : 4096 ≤ (x.compared word).activeSeen
      · rw [if_pos hlimit]
        exact if_pos hlimit
      · rw [if_neg hlimit, ← hnone]
        exact if_neg hlimit
  · rw [if_neg hany, if_neg hany, hnone]

/-- The mismatch streak at the proven lag (R60). -/
def watchStreak (s : State) (c : Channel) (x : Context) (word : Pattern) : Nat :=
  streakAfter word (x.delay.getD (s.channel c).lag.val none) x.streak

theorem watch_eq (s : State) (c : Channel) (k : CtxNo) (x : Context) (word : Pattern) :
    s.watch c k x word = s.contextJudged k { x with streak := s.watchStreak c x word, lastCopper := some word }
      (if 4 ≤ s.watchStreak c x word ∧ x.streak < s.watchStreak c x word then [.demotion c k] else []) := by
  unfold watch contextJudged
  dsimp only
  by_cases h : 4 ≤ s.watchStreak c x word ∧ x.streak < s.watchStreak c x word
  · rw [if_pos h]
    exact if_pos h
  · rw [if_neg h, List.append_nil]
    exact if_neg h

theorem handOver_inactive {s : State} {c : Channel} {k : CtxNo} {word : Pattern} {good : Bool} {x : Context}
    (hx : s.context k = some x) (h : x.owner ≠ c ∨ good = false ∨ x.lastCopper = some word) :
    s.handOver c k word good = s := by
  unfold handOver
  rw [hx]
  dsimp only
  by_cases hactive : x.owner = c ∧ good = true
  · rw [if_pos hactive]
    refine if_pos ((h.resolve_left fun h => h hactive.1).resolve_left fun h => ?_)
    exact Bool.false_ne_true (h.symm.trans hactive.2)
  · rw [if_neg hactive]

section
variable {s : State} {c : Channel} {k : CtxNo} {word : Pattern} {x : Context} (hx : s.context k = some x)
  (howner : x.owner = c) (hnew : x.lastCopper ≠ some word)
include hx howner hnew

theorem handOver_first (h : x.lastCopper = none ∨ (s.channel c).phase ∉ [.shadow, .proven, .cutting]) :
    s.handOver c k word true = s.contextJudged k { x with lastCopper := some word } [] := by
  have hset : s.setContext k { x with lastCopper := some word } =
      s.contextJudged k { x with lastCopper := some word } [] := by
    unfold contextJudged
    rw [List.append_nil]
    rfl
  unfold handOver
  rw [hx]
  dsimp only
  rw [if_pos ⟨howner, rfl⟩, if_neg hnew, hset]
  by_cases hlast : x.lastCopper = none
  · rw [if_pos hlast]
  · rw [if_neg hlast]
    have hphase := h.resolve_left hlast
    split
    next h => exact absurd (by rw [h]; decide) hphase
    next h => exact absurd (by rw [h]; decide) hphase
    next h => exact absurd (by rw [h]; decide) hphase
    next => rfl

theorem handOver_shadow (hlast : x.lastCopper ≠ none) (hphase : (s.channel c).phase = .shadow) :
    s.handOver c k word true = s.contextJudged k (x.compared word) (s.proofDue c k x word) := by
  unfold handOver
  rw [hx]
  dsimp only
  rw [if_pos ⟨howner, rfl⟩, if_neg hnew, if_neg hlast, hphase]
  exact prove_eq s c k x word

theorem handOver_watched (hlast : x.lastCopper ≠ none)
    (hphase : (s.channel c).phase = .proven ∨ (s.channel c).phase = .cutting) : s.handOver c k word true =
      s.contextJudged k { x with streak := s.watchStreak c x word, lastCopper := some word }
        (if 4 ≤ s.watchStreak c x word ∧ x.streak < s.watchStreak c x word then [.demotion c k] else []) := by
  unfold handOver
  rw [hx]
  dsimp only
  rw [if_pos ⟨howner, rfl⟩, if_neg hnew, if_neg hlast, ← watch_eq]
  obtain h | h := hphase <;> rw [h]

end

end State

theorem streakAfter_none (word : Pattern) (n : Nat) : streakAfter word none n = n := rfl

theorem streakAfter_same (word : Pattern) (n : Nat) : streakAfter word (some word) n = 0 := if_pos rfl

theorem streakAfter_other {word w : Pattern} (n : Nat) (h : w ≠ word) : streakAfter word (some w) n = min 4 (n + 1) :=
  if_neg h

/-- A streak that reaches 4 in this comparison (R60). -/
theorem streak_reached_iff (word : Pattern) (entry : Option Pattern) (n : Nat) :
    (4 ≤ streakAfter word entry n ∧ n < streakAfter word entry n) ↔ (streakAfter word entry n = 4 ∧ n < 4) := by
  cases entry with
  | none =>
    rw [streakAfter_none]
    omega
  | some w =>
    by_cases h : w = word
    · rw [h, streakAfter_same]
      omega
    · rw [streakAfter_other n h]
      omega

/-- Settles O24: the active cases by `handOver_first`, `handOver_shadow` and `handOver_watched`. -/
theorem handOverIsJudgedByTheOwnersPhase : Obligations.HandOverIsJudgedByTheOwnersPhase := by
  intro c k word good x s hx t entry
  refine ⟨State.handOver_inactive hx, fun howner hgood hnew => ?_⟩
  subst hgood
  have hkeeps (y : Context) (due : List Due) :
      { s.contextJudged k y due with cp := s.cp, due := s.due } = s ∧
      (s.contextJudged k y due).cp.queue = s.cp.queue ∧ keepsOtherContexts (some k) s (s.contextJudged k y due) ∧
      (s.contextJudged k y due).context k = some y :=
    ⟨rfl, rfl, fun j hj => Assoc.find_put_other _ _ fun e => hj (congrArg some e), Assoc.find_put_same _ _ _⟩
  by_cases hfirst : x.lastCopper = none ∨ (s.channel c).phase ∉ [.shadow, .proven, .cutting]
  · have ht : t = _ := State.handOver_first hx howner hnew hfirst
    clear_value t
    subst ht
    obtain ⟨hrest, hqueue, hothers, hcontext⟩ := hkeeps { x with lastCopper := some word } []
    refine ⟨hrest, hqueue, hothers, _, hcontext, rfl, rfl, fun _ => ⟨rfl, List.append_nil _⟩, fun last hlast hphase => ?_,
      fun last hlast hphase => ?_⟩
    · refine absurd hfirst (not_or.mpr ⟨by rw [hlast]; exact Option.some_ne_none _, ?_⟩)
      rw [hphase]
      decide
    · refine absurd hfirst (not_or.mpr ⟨by rw [hlast]; exact Option.some_ne_none _, ?_⟩)
      obtain h | h := hphase <;> rw [h] <;> decide
  obtain ⟨hlast, hphase⟩ := not_or.mp hfirst
  by_cases hshadow : (s.channel c).phase = .shadow
  · have ht : t = _ := State.handOver_shadow hx howner hnew hlast hshadow
    clear_value t
    subst ht
    obtain ⟨hrest, hqueue, hothers, hcontext⟩ := hkeeps (x.compared word) (s.proofDue c k x word)
    refine ⟨hrest, hqueue, hothers, _, hcontext, rfl, rfl, fun h => absurd h hfirst,
      fun last _ _ hdelay hruns => ⟨rfl, fun l hl => ?_, fun hhold => ?_, fun hsome => ⟨?_, fun l hrun hbelow => ?_,
        fun hshort => ?_⟩⟩, fun _ _ hphase => ?_⟩
    · rw [getD_compared_runs word (hdelay ▸ hl) (hruns ▸ hl)]
      show runAfter word (entry l) _ = _
      unfold runAfter
      cases entry l <;> rfl
    · have hany : ¬ x.delay.any Option.isSome = true := fun h => by
        obtain ⟨l, hl, hne⟩ := (any_isSome_iff hdelay).mp h
        exact hne (hhold l hl)
      refine ⟨if_neg hany, ?_⟩
      show s.due ++ s.proofDue c k x word = s.due
      unfold State.proofDue
      rw [if_neg hany, List.append_nil]
    · exact if_pos ((any_isSome_iff hdelay).mpr hsome)
    · show s.due ++ s.proofDue c k x word = _
      unfold State.proofDue
      rw [if_pos ((any_isSome_iff hdelay).mpr hsome),
        provenLag_eq_some (length_compared_runs word hdelay hruns) hrun hbelow]
    · show s.due ++ s.proofDue c k x word = _
      have hseen : (x.compared word).activeSeen = min 4096 (x.activeSeen + 1) :=
        if_pos ((any_isSome_iff hdelay).mpr hsome)
      have hlimit : 4096 ≤ (x.compared word).activeSeen ↔ (x.compared word).activeSeen = 4096 := by
        rw [hseen]
        omega
      unfold State.proofDue
      rw [if_pos ((any_isSome_iff hdelay).mpr hsome),
        provenLag_eq_none (length_compared_runs word hdelay hruns) hshort]
      simp only [hlimit]
    · exact absurd hphase (by rw [hshadow]; decide)
  · have hwatched : (s.channel c).phase = .proven ∨ (s.channel c).phase = .cutting := by
      have hlisted := Decidable.not_not.mp hphase
      simpa [hshadow] using hlisted
    have ht : t = _ := State.handOver_watched hx howner hnew hlast hwatched
    clear_value t
    subst ht
    obtain ⟨hrest, hqueue, hothers, hcontext⟩ := hkeeps
      { x with streak := s.watchStreak c x word, lastCopper := some word }
      (if 4 ≤ s.watchStreak c x word ∧ x.streak < s.watchStreak c x word then [.demotion c k] else [])
    refine ⟨hrest, hqueue, hothers, _, hcontext, rfl, rfl, fun h => absurd h hfirst, fun _ _ h => absurd h hshadow,
      fun last _ _ => ⟨rfl, rfl, fun h => ?_, fun h => ?_, fun w h hne => ?_, ?_⟩⟩
    · exact congrArg (streakAfter word · x.streak) h
    · exact (congrArg (streakAfter word · x.streak) h).trans (streakAfter_same word _)
    · exact (congrArg (streakAfter word · x.streak) h).trans (streakAfter_other _ hne)
    · show s.due ++ (if 4 ≤ s.watchStreak c x word ∧ x.streak < s.watchStreak c x word then _ else _) = _
      unfold State.watchStreak
      simp only [streak_reached_iff]

end Sys2Proof.Machine
end

section
/-! SUPPORT. The carrier-loss claim (R40), channel by channel and over the channel map, and the statement that it settles. -/

namespace Sys2Proof

namespace Assoc

variable {κ α : Type} [DecidableEq κ]

theorem find_of_not_mem_keys {m : Assoc κ α} {k : κ} (h : k ∉ keys m) : find m k = none := by
  induction m with
  | nil => rfl
  | cons p t ih =>
    obtain ⟨j, v⟩ := p
    rw [keys, List.mem_cons, not_or] at h
    rw [find_cons, if_neg (Ne.symm h.1), ih h.2]

end Assoc

namespace Machine

/-- A record after the carrier loss (R40). -/
def ChannelRecord.lost (r : ChannelRecord) : ChannelRecord :=
  match r.phase with
  | .proven => { r.moved .shadow .pass .pass .shadow with lag := 0 }
  | .cutting => { r.moved .shadow .pass .pass .shadow with lag := 0 }
  | .carried => { r.moved .fallen .pass .pass .shadow with
      context := none, lag := 0, collapsed := false, cause := none, origin := none }
  | .retired => { r.moved .stranded .idle .idle .live with cause := some .link }
  | _ => r

/-- A channel's context after the carrier loss (R40, R62). -/
def Context.lostIn (x : Context) (p : Phase) : Option Context :=
  match p with
  | .shadow => some x.restart
  | .proven => some x.restart
  | .cutting => some x.restart
  | .carried => none
  | _ => some x

namespace State

/-- What the carrier-loss claim makes of one channel (R40). -/
structure CarrierLost (s t : State) (c : Channel) : Prop where
  record : t.channel c = (s.channel c).lost
  records : keepsOtherChannels c s t
  context : ∀ k x, (s.channel c).context = some k → s.context k = some x →
    t.context k = x.lostIn (s.channel c).phase
  contexts : keepsOtherContexts (s.channel c).context s t
  proofQueue : t.cp.queue = s.cp.queue ++ if (s.channel c).phase = .carried then [c] else []
  notices : t.sn = if (s.channel c).phase = .cutting then { s.sn with
      queue := s.queueWithout .cut c
      outstanding := s.outstandingWithout .cut c
      schedules := Assoc.drop s.sn.schedules c }
    else s.sn
  rest : { t with cm := s.cm, cp := s.cp, sn := s.sn } = s

theorem restart_context {s : State} {c : Channel} {k : CtxNo} {x : Context} (hk : (s.channel c).context = some k)
    (hx : s.context k = some x) : (s.modContextOf c Context.restart).context k = some x.restart := by
  rw [modContextOf_of_some _ hk hx]
  exact Assoc.find_put_same _ _ _

theorem keepsOtherContexts_modContextOf (s : State) (c : Channel) (f : Context → Context) :
    keepsOtherContexts (s.channel c).context s (s.modContextOf c f) := by
  rw [modContextOf_eq]
  exact fun j hj => context_contextsChanged_other f hj

/-- The claim where it restarts the proof state and changes the record (R40). -/
theorem carrierLost_of_restart {s t : State} {c : Channel} {r : ChannelRecord}
    (hphase : (s.channel c).phase = .shadow ∨ (s.channel c).phase = .proven ∨ (s.channel c).phase = .cutting)
    (hr : r = (s.channel c).lost) (ht : t = { s with
      cm := t.cm
      cp := { s.cp with contexts := s.contextsChanged c Context.restart }
      sn := t.sn })
    (hrecord : t.channel c = r) (hrecords : keepsOtherChannels c s t)
    (hnotices : t.sn = if (s.channel c).phase = .cutting then { s.sn with
        queue := s.queueWithout .cut c
        outstanding := s.outstandingWithout .cut c
        schedules := Assoc.drop s.sn.schedules c }
      else s.sn) : CarrierLost s t c := by
  have hcp : t.cp = { s.cp with contexts := s.contextsChanged c Context.restart } := congrArg State.cp ht
  have hlostIn (x : Context) : x.lostIn (s.channel c).phase = some x.restart := by
    obtain h | h | h := hphase <;> rw [h] <;> rfl
  have hnot : (s.channel c).phase ≠ .carried := by
    obtain h | h | h := hphase <;> rw [h] <;> exact Phase.noConfusion
  refine ⟨hrecord.trans hr, hrecords, fun k x hk hx => ?_, fun j hj => ?_, ?_, hnotices, ?_⟩
  · rw [hlostIn]
    unfold context
    rw [hcp]
    exact context_contextsChanged_same _ hk hx
  · unfold context
    rw [hcp]
    exact context_contextsChanged_other _ hj
  · rw [hcp, if_neg hnot, List.append_nil]
  · rw [ht]

theorem loseCarrier_shadow {s : State} {c : Channel} (h : (s.channel c).phase = .shadow) :
    CarrierLost s (s.loseCarrier c) c := by
  have heq : s.loseCarrier c = s.modContextOf c Context.restart := by
    unfold loseCarrier
    rw [h]
  rw [modContextOf_eq] at heq
  rw [heq]
  refine carrierLost_of_restart (.inl h) ?_ rfl rfl (fun _ _ => rfl) ?_
  · unfold ChannelRecord.lost
    rw [h]
    rfl
  · rw [if_neg (by rw [h]; exact Phase.noConfusion)]

theorem loseCarrier_proven {s : State} {c : Channel} (h : (s.channel c).phase = .proven) :
    CarrierLost s (s.loseCarrier c) c := by
  have heq : s.loseCarrier c = (s.modContextOf c Context.restart).modChannel c
      fun r => { r.enter .shadow with lag := 0 } := by
    unfold loseCarrier
    rw [h]
  rw [modContextOf_eq] at heq
  rw [heq]
  refine carrierLost_of_restart (.inr (.inl h)) ?_ rfl (channel_put (s := s) rfl) (keepsOtherChannels_put rfl) ?_
  · unfold ChannelRecord.lost
    rw [h]
    rfl
  · rw [if_neg (by rw [h]; exact Phase.noConfusion)]
    rfl

theorem loseCarrier_cutting {s : State} {c : Channel} (h : (s.channel c).phase = .cutting) :
    CarrierLost s (s.loseCarrier c) c := by
  have heq : s.loseCarrier c = ((s.modContextOf c Context.restart).modChannel c
      fun r => { r.enter .shadow with lag := 0 }).dropCut c := by
    unfold loseCarrier
    rw [h]
  rw [dropCut_eq, modContextOf_eq] at heq
  rw [heq]
  refine carrierLost_of_restart (.inr (.inr h)) ?_ rfl (channel_put (s := s) rfl) (keepsOtherChannels_put rfl) ?_
  · unfold ChannelRecord.lost
    rw [h]
    rfl
  · rw [if_pos h]
    rfl

theorem loseCarrier_carried {s : State} {c : Channel} (h : (s.channel c).phase = .carried) :
    CarrierLost s (s.loseCarrier c) c := by
  have heq : s.loseCarrier c = (s.handBack c).fall c := by
    unfold loseCarrier
    rw [h]
  unfold fall at heq
  rw [handBack_eq_contextsWithout,
    modChannel_of_put (s := s) (r := { s.channel c with context := none, lag := 0 }) _ rfl] at heq
  have hfreed : contextFreed (s.channel c).context s (s.loseCarrier c) := by
    rw [heq]
    exact contextFreed_contextsWithout rfl
  refine ⟨?_, ?_, fun k x hk _ => ?_, hfreed.2, ?_, ?_, ?_⟩
  · rw [heq]
    refine (channel_put (s := s) rfl).trans ?_
    unfold ChannelRecord.lost
    rw [h]
    rfl
  · rw [heq]
    exact keepsOtherChannels_put rfl
  · rw [hfreed.1 k hk, h]
    rfl
  · rw [heq, if_pos h]
    rfl
  · rw [heq, if_neg (by rw [h]; exact Phase.noConfusion)]
    rfl
  · rw [heq]
    rfl

theorem loseCarrier_retired {s : State} {c : Channel} (h : (s.channel c).phase = .retired) :
    CarrierLost s (s.loseCarrier c) c := by
  have heq : s.loseCarrier c = s.modChannel c fun r => { r.enter .stranded with cause := some .link } := by
    unfold loseCarrier
    rw [h]
  rw [heq]
  refine ⟨(channel_put (s := s) rfl).trans ?_, keepsOtherChannels_put rfl, fun k x _ hx => ?_, fun _ _ => rfl, ?_, ?_, rfl⟩
  · unfold ChannelRecord.lost
    rw [h]
    rfl
  · rw [h]
    exact hx
  · rw [if_neg (by rw [h]; exact Phase.noConfusion), List.append_nil]
    rfl
  · rw [if_neg (by rw [h]; exact Phase.noConfusion)]
    rfl

theorem loseCarrier_other {s : State} {c : Channel}
    (h : (s.channel c).phase ∉ [.shadow, .proven, .cutting, .carried, .retired]) : CarrierLost s (s.loseCarrier c) c := by
  have heq : s.loseCarrier c = s ∧ (s.channel c).lost = s.channel c ∧
      ∀ x : Context, x.lostIn (s.channel c).phase = some x := by
    unfold loseCarrier ChannelRecord.lost
    revert h
    cases (s.channel c).phase
    case shadow | proven | cutting | carried | retired => exact fun h => absurd (by decide) h
    all_goals exact fun _ => ⟨rfl, rfl, fun _ => rfl⟩
  obtain ⟨hsame, hlost, hlostIn⟩ := heq
  rw [hsame]
  refine ⟨hlost.symm, fun _ _ => rfl, fun k x _ hx => by rw [hx, hlostIn], fun _ _ => rfl, ?_, ?_, rfl⟩
  · rw [if_neg fun h' => h (by rw [h']; decide), List.append_nil]
  · rw [if_neg fun h' => h (by rw [h']; decide)]

/-- The claim, one channel at a time. -/
theorem loseCarrier_spec (s : State) (c : Channel) : CarrierLost s (s.loseCarrier c) c := by
  by_cases h : (s.channel c).phase ∈ [.shadow, .proven, .cutting, .carried, .retired]
  · simp only [List.mem_cons, List.not_mem_nil, or_false] at h
    obtain h | h | h | h | h := h
    · exact loseCarrier_shadow h
    · exact loseCarrier_proven h
    · exact loseCarrier_cutting h
    · exact loseCarrier_carried h
    · exact loseCarrier_retired h
  · exact loseCarrier_other h

/-! ## Over the channel map -/

section
variable {l : List Channel}

theorem loss_fold_rest (s : State) (l : List Channel) :
    { l.foldl loseCarrier s with cm := s.cm, cp := s.cp, sn := s.sn } = s := by
  induction l generalizing s with
  | nil => rfl
  | cons c l ih =>
    have h := ih (s.loseCarrier c)
    have h' := (loseCarrier_spec s c).rest
    exact (congrArg (fun u : State => { u with cm := s.cm, cp := s.cp, sn := s.sn }) h).trans h'

theorem loss_fold_channel_of_not_mem {s : State} {c : Channel} (h : c ∉ l) :
    (l.foldl loseCarrier s).channel c = s.channel c := by
  induction l generalizing s with
  | nil => rfl
  | cons d l ih =>
    obtain ⟨hne, hnot⟩ := not_or.mp ((not_congr List.mem_cons).mp h)
    exact (ih hnot).trans ((loseCarrier_spec s d).records c hne)

theorem loss_fold_channel_of_mem {s : State} {c : Channel} (hl : l.Nodup) (h : c ∈ l) :
    (l.foldl loseCarrier s).channel c = (s.channel c).lost := by
  induction l generalizing s with
  | nil => cases h
  | cons d l ih =>
    obtain ⟨hd, hl⟩ := List.nodup_cons.mp hl
    obtain rfl | h := List.mem_cons.mp h
    · exact (loss_fold_channel_of_not_mem hd).trans (loseCarrier_spec s c).record
    · rw [← (loseCarrier_spec s d).records c fun e => hd (e ▸ h)]
      exact ih hl h

/-- A channel not yet reached has the record it had. -/
theorem channel_ahead {s : State} {c d : Channel} (hd : d ∉ l) (h : c ∈ l) :
    (s.loseCarrier d).channel c = s.channel c :=
  (loseCarrier_spec s d).records c fun e => hd (e ▸ h)

theorem loss_fold_context_of_none {s : State} {k : CtxNo} (hl : l.Nodup)
    (h : ∀ e ∈ l, (s.channel e).context ≠ some k) : (l.foldl loseCarrier s).context k = s.context k := by
  induction l generalizing s with
  | nil => rfl
  | cons d l ih =>
    obtain ⟨hd, hl⟩ := List.nodup_cons.mp hl
    have hstep := (loseCarrier_spec s d).contexts k fun e => h d List.mem_cons_self e.symm
    refine (ih hl fun e he => ?_).trans hstep
    rw [channel_ahead hd he]
    exact h e (List.mem_cons_of_mem _ he)

theorem loss_fold_context {s : State} {c : Channel} {k : CtxNo} {x : Context} (hl : l.Nodup) (hc : c ∈ l)
    (hk : (s.channel c).context = some k) (hx : s.context k = some x)
    (hsingle : ∀ e ∈ l, (s.channel e).context = some k → e = c) :
    (l.foldl loseCarrier s).context k = x.lostIn (s.channel c).phase := by
  induction l generalizing s with
  | nil => cases hc
  | cons d l ih =>
    obtain ⟨hd, hrest⟩ := List.nodup_cons.mp hl
    obtain rfl | hc := List.mem_cons.mp hc
    · refine (loss_fold_context_of_none (s := s.loseCarrier c) hrest fun e he hek => ?_).trans
        ((loseCarrier_spec s c).context k x hk hx)
      rw [channel_ahead hd he] at hek
      exact hd (hsingle e (List.mem_cons_of_mem _ he) hek ▸ he)
    · have hstep := (loseCarrier_spec s d).contexts k fun e =>
        hd (hsingle d List.mem_cons_self e.symm ▸ hc)
      have hsame := channel_ahead (s := s) hd hc
      rw [← hsame]
      refine ih hrest hc (by rw [hsame]; exact hk) (hstep.trans hx) fun e he hek => ?_
      rw [channel_ahead hd he] at hek
      exact hsingle e (List.mem_cons_of_mem _ he) hek

theorem loss_fold_proofQueue {s : State} (hl : l.Nodup) : (l.foldl loseCarrier s).cp.queue =
    s.cp.queue ++ l.filter fun c => decide ((s.channel c).phase = .carried) := by
  induction l generalizing s with
  | nil => exact (List.append_nil _).symm
  | cons d l ih =>
    obtain ⟨hd, hl⟩ := List.nodup_cons.mp hl
    have hfilter : (l.filter fun c => decide (((s.loseCarrier d).channel c).phase = .carried)) =
        l.filter fun c => decide ((s.channel c).phase = .carried) :=
      List.filter_congr fun c hc => by rw [channel_ahead hd hc]
    rw [List.foldl_cons, ih hl, hfilter, (loseCarrier_spec s d).proofQueue, List.append_assoc, List.filter_cons]
    congr 1
    by_cases h : (s.channel d).phase = .carried
    · rw [if_pos h, if_pos (decide_eq_true h)]
      rfl
    · rw [if_neg h, if_neg (by simpa using h)]
      rfl

/-- The own CUT of a channel is withdrawn by a fold over a list: the channel is in the list, and CUTTING (R40). -/
def cutDropped (s : State) (l : List Channel) (c : Channel) : Bool :=
  decide (c ∈ l) && decide ((s.channel c).phase = .cutting)

theorem cutDropped_cons {s : State} {d : Channel} (hd : d ∉ l) (c : Channel) : s.cutDropped (d :: l) c =
    (decide ((s.channel d).phase = .cutting) && decide (c = d) || (s.loseCarrier d).cutDropped l c) := by
  unfold cutDropped
  by_cases hcd : c = d
  · rw [hcd]
    simp [hd]
  · by_cases hc : c ∈ l
    · simp [hcd, hc, channel_ahead hd hc]
    · simp [hcd, hc]

/-- A request or a notice that the carrier loss withdraws (R40). -/
def withdrawn (s : State) (l : List Channel) (k : NoticeKind) (c : Channel) : Bool :=
  decide (k = .cut) && s.cutDropped l c

theorem loseCarrier_queue (s : State) (d : Channel) : (s.loseCarrier d).sn.queue = s.sn.queue.filter
    fun x => !(decide (x.kind = .cut) && (decide ((s.channel d).phase = .cutting) && decide (x.channel = d))) := by
  rw [(loseCarrier_spec s d).notices]
  by_cases h : (s.channel d).phase = .cutting
  · rw [if_pos h]
    refine List.filter_congr fun x _ => ?_
    obtain ⟨k, c⟩ := x
    simp [h, Request.mk.injEq]
  · rw [if_neg h]
    exact (List.filter_eq_self.mpr (by simp [h])).symm

theorem loss_fold_queue {s : State} (hl : l.Nodup) : (l.foldl loseCarrier s).sn.queue =
    s.sn.queue.filter fun x => !s.withdrawn l x.kind x.channel := by
  induction l generalizing s with
  | nil =>
    unfold withdrawn cutDropped
    exact (List.filter_eq_self.mpr (by simp)).symm
  | cons d l ih =>
    obtain ⟨hd, hl⟩ := List.nodup_cons.mp hl
    rw [List.foldl_cons, ih hl, loseCarrier_queue, List.filter_filter]
    refine List.filter_congr fun x _ => ?_
    unfold withdrawn
    rw [cutDropped_cons hd]
    cases decide (x.kind = .cut) <;> cases (s.loseCarrier d).cutDropped l x.channel <;> simp

theorem loseCarrier_outstanding (s : State) (d : Channel) : (s.loseCarrier d).sn.outstanding = s.sn.outstanding.filter
    fun o => !(decide (o.kind = .cut) && (decide ((s.channel d).phase = .cutting) && decide (o.channel = d))) := by
  rw [(loseCarrier_spec s d).notices]
  by_cases h : (s.channel d).phase = .cutting
  · rw [if_pos h]
    show s.outstandingWithout .cut d = _
    unfold outstandingWithout
    cases s.sn.outstanding with
    | none => rfl
    | some o => by_cases ho : o.kind = .cut ∧ o.channel = d <;> simp [h, ho, Option.filter]
  · rw [if_neg h]
    simp only [h, decide_false, Bool.false_and, Bool.and_false, Bool.not_false]
    cases s.sn.outstanding <;> rfl

theorem loss_fold_outstanding {s : State} (hl : l.Nodup) : (l.foldl loseCarrier s).sn.outstanding =
    s.sn.outstanding.filter fun o => !s.withdrawn l o.kind o.channel := by
  induction l generalizing s with
  | nil =>
    simp only [List.foldl_nil, withdrawn, cutDropped, List.not_mem_nil, decide_false, Bool.false_and, Bool.and_false,
      Bool.not_false]
    cases s.sn.outstanding <;> rfl
  | cons d l ih =>
    obtain ⟨hd, hl⟩ := List.nodup_cons.mp hl
    rw [List.foldl_cons, ih hl, loseCarrier_outstanding, Option.filter_filter]
    congr 1
    funext o
    unfold withdrawn
    rw [cutDropped_cons hd]
    cases decide (o.kind = .cut) <;> cases (s.loseCarrier d).cutDropped l o.channel <;> simp

theorem loseCarrier_schedules (s : State) (c d : Channel) : Assoc.find (s.loseCarrier d).sn.schedules c =
    if (decide ((s.channel d).phase = .cutting) && decide (c = d)) = true then none
    else Assoc.find s.sn.schedules c := by
  rw [(loseCarrier_spec s d).notices]
  by_cases h : (s.channel d).phase = .cutting
  · rw [if_pos h]
    by_cases hc : c = d
    · rw [if_pos (by simp [h, hc]), hc]
      exact Assoc.find_drop_same _ _
    · rw [if_neg (by simp [hc])]
      exact Assoc.find_drop_other _ hc
  · rw [if_neg h, if_neg (by simp [h])]

theorem loss_fold_schedules {s : State} (hl : l.Nodup) (c : Channel) : Assoc.find (l.foldl loseCarrier s).sn.schedules c =
    if s.cutDropped l c = true then none else Assoc.find s.sn.schedules c := by
  induction l generalizing s with
  | nil => exact (if_neg (by unfold cutDropped; simp)).symm
  | cons d l ih =>
    obtain ⟨hd, hl⟩ := List.nodup_cons.mp hl
    rw [List.foldl_cons, ih hl, loseCarrier_schedules, cutDropped_cons hd]
    cases (s.loseCarrier d).cutDropped l c <;>
      cases (decide ((s.channel d).phase = .cutting) && decide (c = d)) <;> rfl

theorem loss_fold_sn (s : State) (l : List Channel) :
    (l.foldl loseCarrier s).sn.slots = s.sn.slots ∧ (l.foldl loseCarrier s).sn.peer = s.sn.peer ∧
    (l.foldl loseCarrier s).sn.nextNumber = s.sn.nextNumber := by
  induction l generalizing s with
  | nil => exact ⟨rfl, rfl, rfl⟩
  | cons d l ih =>
    have hstep : (s.loseCarrier d).sn.slots = s.sn.slots ∧ (s.loseCarrier d).sn.peer = s.sn.peer ∧
        (s.loseCarrier d).sn.nextNumber = s.sn.nextNumber := by
      rw [(loseCarrier_spec s d).notices]
      split <;> exact ⟨rfl, rfl, rfl⟩
    obtain ⟨hslots, hpeer, hnumber⟩ := ih (s.loseCarrier d)
    exact ⟨hslots.trans hstep.1, hpeer.trans hstep.2.1, hnumber.trans hstep.2.2⟩

end

theorem channel_of_not_listed {s : State} {c : Channel} (h : c ∉ Assoc.keys s.cm) : s.channel c = .reset := by
  unfold channel
  rw [Assoc.find_of_not_mem_keys h]
  rfl

theorem listed_of_phase {s : State} {c : Channel} (h : (s.channel c).phase ≠ .copper) : c ∈ Assoc.keys s.cm := by
  refine Classical.byContradiction fun hc => ?_
  rw [channel_of_not_listed hc] at h
  exact h rfl

theorem cutDropped_keys (s : State) (c : Channel) :
    s.cutDropped (Assoc.keys s.cm) c = decide ((s.channel c).phase = .cutting) := by
  unfold cutDropped
  by_cases h : (s.channel c).phase = .cutting
  · have hc := listed_of_phase (s := s) (c := c) (by rw [h]; exact Phase.noConfusion)
    simp [hc]
  · simp [h]

end State

/-- Settles O45: the carrier-loss claim over the channel map by the `loss_fold` lemmas. -/
theorem linkDownTakesTheCarrierLossClaim : Obligations.LinkDownTakesTheCarrierLossClaim := by
  intro s hdue horder
  rw [exec_due rfl hdue]
  refine ⟨fun hnot => ?_, fun hlink hcount => ?_⟩
  · refine congrArg Host.Outcome.next (if_neg fun ⟨hlink, hcount⟩ => hnot ⟨?_, hcount⟩)
    exact (linkIsUp_iff { s with due := s.due.erase .linkDown }).mp hlink
  · let v : State := { s with
      cl := { s.cl with link := .dark, lossCount := 0, huntCount := 0, lastNumber := none }
      du := s.du.raised .linkDown 0
      due := s.due.erase .linkDown }
    let l := Assoc.keys s.cm
    have hl : l.Nodup := horder.imp fun h => Fin.ne_of_lt h
    let u : State := l.foldl State.loseCarrier v
    have heffect : effect .linkDown { s with due := s.due.erase .linkDown } = u.noticesLinkLost := by
      refine (if_pos ⟨(linkIsUp_iff { s with due := _ }).mpr hlink, hcount⟩).trans ?_
      rw [raise_eq]
      rfl
    have hrest := State.loss_fold_rest v l
    obtain ⟨hslots, hpeer, hnumber⟩ := State.loss_fold_sn v l
    refine ⟨_, congrArg _ heffect, congrArg State.cl hrest, congrArg State.du hrest, congrArg State.due hrest, ?_,
      fun c => ?_, fun c k x hk hx hsingle => ?_, State.loss_fold_proofQueue (s := v) hl, rfl, hnumber, fun n => ?_, ?_, ?_,
      fun c => ?_⟩
    · exact congrArg (fun w : State => { w with cl := s.cl, cm := s.cm, cp := s.cp, sn := s.sn, du := s.du, due := s.due }) hrest
    · have hlost : u.channel c = (s.channel c).lost := by
        by_cases hc : c ∈ l
        · exact State.loss_fold_channel_of_mem (s := v) hl hc
        · refine (State.loss_fold_channel_of_not_mem (s := v) hc).trans ?_
          show s.channel c = _
          rw [State.channel_of_not_listed hc]
          rfl
      refine hlost.trans ?_
      unfold ChannelRecord.lost
      cases (s.channel c).phase <;> rfl
    · have hc : c ∈ l := by
        refine Classical.byContradiction fun hc => ?_
        rw [State.channel_of_not_listed hc] at hk
        exact Option.some_ne_none _ hk.symm
      refine (State.loss_fold_context (s := v) hl hc hk hx fun e _ => hsingle e).trans ?_
      show x.lostIn (s.channel c).phase = _
      cases (s.channel c).phase <;> rfl
    · show (Assoc.find (Assoc.mapValues _ u.sn.slots) n).getD .reset = _
      rw [Assoc.find_mapValues, hslots]
      show _ = { (Assoc.find s.sn.slots n).getD .reset with
        orphanCount := 0, liveRun := 0, shadowRun := 0, peerAhead := false, peerShadow := false, followDue := false }
      cases Assoc.find s.sn.slots n <;> rfl
    · refine (State.loss_fold_queue (s := v) hl).trans (List.filter_congr fun x _ => ?_)
      unfold State.withdrawn
      rw [State.cutDropped_keys v]
      rfl
    · refine (State.loss_fold_outstanding (s := v) hl).trans ?_
      have hsame : (fun o : Outstanding => !v.withdrawn l o.kind o.channel) =
          fun o => !(decide (o.kind = .cut) && decide ((s.channel o.channel).phase = .cutting)) :=
        funext fun o => congrArg (fun b => !(decide (o.kind = .cut) && b)) (State.cutDropped_keys v o.channel)
      rw [hsame]
      show s.sn.outstanding.filter _ = _
      cases s.sn.outstanding with
      | none => rfl
      | some o => by_cases hcut : o.kind = .cut <;> by_cases hphase : (s.channel o.channel).phase = .cutting <;>
        simp [hcut, hphase]
    · refine (State.loss_fold_schedules (s := v) hl c).trans ?_
      rw [State.cutDropped_keys v]
      exact ite_congr (propext decide_eq_true_iff) (fun _ => rfl) fun _ => rfl

end Machine
end Sys2Proof
end

section
/-! SUPPORT. The carrier frame read from the bytes it is sent as (R176), field by field, and the statement that it settles. -/

namespace Sys2Proof.Machine

/-! ## Fields -/

/-- A field cut in two is put together again. -/
theorem append_of_cut {a b w : Nat} (x : BitVec w) (h : a + b = w) :
    (x.extractLsb' b a ++ x.extractLsb' 0 b : BitVec (a + b)) = x.cast h.symm := by
  subst h
  rw [BitVec.extractLsb'_append_extractLsb', BitVec.cast_eq]

theorem wordOf_wordBytes (w : Word) : wordOf (upperByte w) (lowerByte w) = w := append_of_cut (w := 16) w rfl

theorem pattern_of_parts (p : Pattern) : pattern (supervisionOf p) (codeOf p) = p := append_of_cut (w := 12) p rfl

theorem roleOfBit_roleBit (r : Role) : roleOfBit (roleBit r) = r := by cases r <;> rfl

theorem noticeKindOf_bits (k : Option NoticeKind) : noticeKindOf (noticeKindBits k) = k := by
  cases k with
  | none => rfl
  | some k => cases k <;> rfl

theorem reasonOf_reasonByte (r : DeclineReason) : reasonOf (reasonByte r) = r := by cases r <;> rfl

theorem slotOfBits_slotBits (n : SlotNo) : slotOfBits (slotBits n) = n := by
  apply Fin.ext
  have h := n.isLt
  show (BitVec.ofNat 10 n.val).toNat % 1024 = n.val
  rw [BitVec.toNat_ofNat]
  omega

/-- The kind and the number in one byte, with two bits between them. -/
theorem kind_of_header (k : BitVec 2) (n : BitVec 4) : (k ++ 0#2 ++ n : BitVec 8).extractLsb' 6 2 = k := by
  rw [BitVec.append_assoc]
  exact BitVec.extractLsb'_append_eq_left

theorem number_of_header (k : BitVec 2) (n : BitVec 4) : (k ++ 0#2 ++ n : BitVec 8).extractLsb' 0 4 = n :=
  BitVec.extractLsb'_append_eq_right

/-- The reply field is two bytes, and is read as it was sent. -/
theorem replyBytes_read (r : Option ReplyField) : ∃ b₁₂ b₁₃, replyBytes r = [b₁₂, b₁₃] ∧ replyOf b₁₂ b₁₃ = r := by
  match r with
  | none => exact ⟨0, 0, rfl, rfl⟩
  | some ⟨number, .agree⟩ =>
    refine ⟨_, _, rfl, ?_⟩
    unfold replyOf
    dsimp only
    rw [kind_of_header, number_of_header, if_pos rfl]
  | some ⟨number, .decline reason⟩ =>
    refine ⟨_, _, rfl, ?_⟩
    unfold replyOf
    dsimp only
    rw [kind_of_header, number_of_header, if_neg (by decide), if_pos rfl, reasonOf_reasonByte]

theorem readNotice_sent (f : NoticeField) : readNotice (noticeKindBits f.kind ++ 0#2 ++ f.number)
    (0#6 ++ (slotBits f.slot).extractLsb' 8 2) ((slotBits f.slot).extractLsb' 0 8) (upperByte f.label)
    (lowerByte f.label) f.countdown = f := by
  have hslot : (0#6 ++ (slotBits f.slot).extractLsb' 8 2 : BitVec 8).extractLsb' 0 2 =
      (slotBits f.slot).extractLsb' 8 2 := BitVec.extractLsb'_append_eq_right
  have hbits := append_of_cut (a := 2) (b := 8) (slotBits f.slot) rfl
  rw [BitVec.cast_eq] at hbits
  unfold readNotice
  rw [kind_of_header, number_of_header, noticeKindOf_bits, wordOf_wordBytes, hslot, hbits, slotOfBits_slotBits]

/-! ## Records -/

theorem recordFlags_read (s : BitVec 2) (live damaged last : Bool) :
    let b : Byte := s ++ bit live ++ bit damaged ++ bit last ++ 0#3
    b.extractLsb' 6 2 = s ∧ b.getLsbD 5 = live ∧ b.getLsbD 4 = damaged ∧ b.getLsbD 3 = last := by
  revert s live damaged last
  decide

/-- The check byte makes the sum of a record 255. -/
theorem byteSum_checked (body : List Byte) : byteSum (body ++ [~~~(byteSum body)]) = 0xFF#8 := by
  rw [byteSum_append_singleton, BitVec.add_not_self]
  rfl

theorem recordBytes_length (r : SlotRecord) : (recordBytes r).length = 5 := rfl

/-- A record read from the five bytes it is sent as. -/
theorem readRecords_cons (r : SlotRecord) (rest : List Byte) :
    readRecords (recordBytes r ++ rest) = (readRecords rest).map fun t => ⟨r, true⟩ :: t := by
  obtain ⟨hslot, hlive, hdamaged, hlast⟩ := recordFlags_read ((slotBits r.slot).extractLsb' 0 2) r.live r.damaged r.last
  have hbits := append_of_cut (a := 8) (b := 2) (slotBits r.slot) rfl
  rw [BitVec.cast_eq] at hbits
  have hword : (0#4 ++ supervisionOf r.word : BitVec 8).extractLsb' 0 4 = supervisionOf r.word :=
    BitVec.extractLsb'_append_eq_right
  have hcheck := byteSum_checked [(slotBits r.slot).extractLsb' 2 8,
    (slotBits r.slot).extractLsb' 0 2 ++ bit r.live ++ bit r.damaged ++ bit r.last ++ 0#3,
    0#4 ++ supervisionOf r.word, codeOf r.word]
  show (readRecords rest).map (fun t => readRecord _ _ _ _ _ :: t) = _
  unfold readRecord
  rw [hslot, hlive, hdamaged, hlast, hbits, hword, slotOfBits_slotBits, pattern_of_parts]
  exact congrArg (fun b => (readRecords rest).map fun t => (⟨r, b⟩ : ReceivedRecord) :: t) (beq_iff_eq.mpr hcheck)

theorem readRecords_recordsBytes (records : List SlotRecord) :
    readRecords (recordsBytes records) = some (records.map fun r => ⟨r, true⟩) := by
  induction records with
  | nil => rfl
  | cons r t ih =>
    rw [recordsBytes, readRecords_cons, ih]
    rfl

theorem recordsBytes_length (records : List SlotRecord) : (recordsBytes records).length = 5 * records.length := by
  induction records with
  | nil => rfl
  | cons r t ih =>
    rw [recordsBytes, List.length_append, ih, recordBytes_length, List.length_cons]
    omega

/-- LAST on the last record and on no other, for the records sent. -/
theorem lastOnlyAtEnd_sent {records : List SlotRecord} (hfront : ∀ x ∈ records.dropLast, x.last = false)
    (hlast : ∀ x, records.getLast? = some x → x.last = true) :
    lastOnlyAtEnd (records.map fun r => ⟨r, true⟩) = true := by
  induction records with
  | nil => rfl
  | cons r t ih =>
    cases t with
    | nil => exact hlast r rfl
    | cons q t =>
      have hr : r.last = false := hfront r List.mem_cons_self
      have hrest := ih (fun x hx => hfront x (List.mem_cons_of_mem _ hx)) fun x hx => hlast x (by
        rw [List.getLast?_cons_cons]
        exact hx)
      show (!r.last && _) = true
      rw [hr]
      exact hrest

/-! ## The frame -/

theorem number_read (role : Role) (number : BitVec 12) :
    let b : Byte := bit (roleBit role) ++ 0#3 ++ number.extractLsb' 8 4
    b.extractLsb' 0 4 ++ number.extractLsb' 0 8 = number ∧ b.getLsbD 7 = roleBit role := by
  dsimp only
  have hnumber : (bit (roleBit role) ++ 0#3 ++ number.extractLsb' 8 4 : BitVec 8).extractLsb' 0 4 =
      number.extractLsb' 8 4 := BitVec.extractLsb'_append_eq_right
  have hbits := append_of_cut (a := 4) (b := 8) number rfl
  rw [BitVec.cast_eq] at hbits
  refine ⟨by rw [hnumber, hbits], ?_⟩
  rw [BitVec.getLsbD_append, BitVec.getLsbD_append]
  cases role <;> rfl

theorem count_read {n : Nat} (h : n ≤ 1024) :
    let count : BitVec 11 := BitVec.ofNat 11 n
    ((0#5 ++ count.extractLsb' 8 3 : BitVec 8).extractLsb' 0 3 ++ count.extractLsb' 0 8 : BitVec 11).toNat = n := by
  dsimp only
  have hhigh : (0#5 ++ (BitVec.ofNat 11 n).extractLsb' 8 3 : BitVec 8).extractLsb' 0 3 =
      (BitVec.ofNat 11 n).extractLsb' 8 3 := BitVec.extractLsb'_append_eq_right
  have hbits := append_of_cut (a := 3) (b := 8) (BitVec.ofNat 11 n) rfl
  rw [BitVec.cast_eq] at hbits
  rw [hhigh, hbits, BitVec.toNat_ofNat]
  omega

theorem frameBytes_length (f : CarrierFrame) : (frameBytes f).length = 16 + 5 * f.records.length := by
  obtain ⟨b₁₂, b₁₃, hreply, -⟩ := replyBytes_read f.reply
  unfold frameBytes headerBody
  rw [hreply]
  simp only [List.length_append, recordsBytes_length]
  rfl

/-- Settles O55: the fields of the header by the lemmas above, the records by `readRecords_recordsBytes`. -/
theorem sentFramesReadBackWhole : Obligations.SentFramesReadBackWhole := by
  intro f hcount hfront hlast
  refine ⟨frameBytes_length f, ?_⟩
  obtain ⟨b₁₂, b₁₃, hreply, hreplyOf⟩ := replyBytes_read f.reply
  obtain ⟨hnumber, hrole⟩ := number_read f.role f.number
  have hrecords := readRecords_recordsBytes f.records
  have hlength : (f.records.map fun r => (⟨r, true⟩ : ReceivedRecord)).length = f.records.length := List.length_map _
  unfold frameBytes headerBody
  rw [hreply]
  show readFrame (_ :: _ :: _ :: _ :: _ :: _ :: _ :: _ :: _ :: _ :: _ :: _ :: _ :: _ :: _ :: _ :: recordsBytes f.records) = _
  unfold readFrame
  dsimp only
  rw [hrecords]
  dsimp only
  have hjudged := (count_read hcount).symm
  refine (if_pos ⟨rfl, (wordOf_wordBytes _).symm, hjudged ▸ hcount, hlength.trans hjudged,
    lastOnlyAtEnd_sent hfront hlast⟩).trans ?_
  rw [hnumber, hrole, roleOfBit_roleBit, readNotice_sent, hreplyOf]

end Sys2Proof.Machine
end

section
/-! SUPPORT. The numbers that the report words and the results of INSPECT and SLOTVIEW show (R158, R159, R163 to R165,
R175), and the statement that they settle. -/

namespace Sys2Proof.Machine

/-! ## Words made of fields -/

theorem toNat_fields {m n : Nat} (x : BitVec m) (y : BitVec n) : (x ++ y).toNat = x.toNat * 2 ^ n + y.toNat := by
  rw [BitVec.toNat_append, ← Nat.shiftLeft_add_eq_or_of_lt y.isLt, Nat.shiftLeft_eq]

theorem toNat_bit (b : Bool) : (bit b).toNat = if b = true then 1 else 0 := by cases b <;> rfl

theorem toNat_shownCount (w n : Nat) : (shownCount w n).toNat = min n (2 ^ w - 1) := by
  have h : 0 < 2 ^ w := Nat.two_pow_pos w
  unfold shownCount
  rw [BitVec.toNat_ofNat, Nat.mod_eq_of_lt (by omega)]

/-- A field that is a number below its bound. -/
theorem toNat_field {w n : Nat} (h : n < 2 ^ w) : (BitVec.ofNat w n).toNat = n := by
  rw [BitVec.toNat_ofNat, Nat.mod_eq_of_lt h]

/-! ## Codes -/

theorem toNat_outcomeBits (o : DirectiveOutcome) : o.bits.toNat = match o with
    | .done => 0
    | .phase => 1
    | .range => 2
    | .parity => 3
    | .full => 4
    | .link => 5
    | .label => 6
    | .code => 7 := by cases o <;> rfl

theorem toNat_eventNumber (k : EventKind) : k.number.toNat = 1 + [EventKind.proven, .proveFailed, .demoted, .joined,
    .joinFailed, .joinTimeout, .cutDone, .cutFailed, .followed, .collapsed, .retired, .recalled, .storeFailed, .left,
    .peerLeft, .orphaned, .fallen, .stranded, .unstranded, .slotSilent, .peerAhead, .peerShadow, .linkUp, .linkDown,
    .roleClash, .markLost, .markRestored, .recordSkipped, .loadDone].idxOf k := by cases k <;> rfl

theorem toNat_phaseCode (p : Phase) : p.code.toNat = [Phase.copper, .enrolled, .joining, .shadow, .proven, .cutting,
    .carried, .retiring, .retired, .recalling, .stranded, .fallen, .leaving].idxOf p := by cases p <;> rfl

theorem toNat_slotStateCode (x : SlotState) : x.code.toNat = match x with
    | .free => 0
    | .reserved => 1
    | .held => 2
    | .releasing => 3
    | .barred => 4 := by cases x <;> rfl

theorem toNat_arrivalCode (x : ArrivalKind) : x.code.toNat = match x with
    | .shadow => 0
    | .live => 1
    | .unknown => 2 := by cases x <;> rfl

theorem toNat_causeBits (r : ChannelRecord) : r.causeBits.toNat = match r.phase, r.cause, r.origin with
    | .stranded, some .link, _ => 1
    | .stranded, some .silence, _ => 2
    | .stranded, some .load, _ => 3
    | .recalling, _, some .retired => 1
    | .recalling, _, some .stranded => 2
    | _, _, _ => 0 := by
  unfold ChannelRecord.causeBits
  cases r.phase
  case stranded =>
    cases r.cause with
    | none => rfl
    | some x => cases x <;> rfl
  case recalling =>
    cases r.origin with
    | none => rfl
    | some x => cases x <;> rfl
  all_goals rfl

/-! ## Report words -/

theorem toNat_eventWord (e : Event) (rest : List Event) :
    (eventWord (e :: rest)).toNat = 2048 * e.kind.number.toNat + e.channel.val := by
  unfold eventWord
  rw [toNat_fields, toNat_field e.channel.isLt]
  omega

theorem toNat_statusWord (s : State) : (s.reportWord 0).toNat = 45056 + 2048 * (bit s.du.inProgress.isSome).toNat +
    1024 * (bit s.du.overrun).toNat + 512 * (bit s.du.parity).toNat + 64 * s.du.outcome.bits.toNat + s.du.tag.toNat := by
  unfold State.reportWord DirectiveUnit.busy
  simp only [toNat_fields, BitVec.toNat_ofNat]
  omega

theorem toNat_linkWord (s : State) : (s.reportWord 9).toNat = (match s.cl.peerRole with
      | none => 0
      | some .lead => 512
      | some .follow => 768) + (if s.cl.role = some .follow then 16 else 0) +
    (match s.cl.link with
      | .dark => 0
      | .hunting => 1
      | .up => 2) := by
  have hlink : s.cl.link.code.toNat = (match s.cl.link with
      | .dark => 0
      | .hunting => 1
      | .up => 2) := by cases s.cl.link <;> rfl
  have hpeer : 256 * (peerRoleBits s.cl.peerRole).toNat = (match s.cl.peerRole with
      | none => 0
      | some .lead => 512
      | some .follow => 768) := by
    cases s.cl.peerRole with
    | none => rfl
    | some r => cases r <;> rfl
  have hown : 16 * (bit (ownRoleBit s.cl.role)).toNat = (if s.cl.role = some .follow then 16 else 0) := by
    cases s.cl.role with
    | none => rfl
    | some r => cases r <;> rfl
  rw [← hlink, ← hpeer, ← hown]
  unfold State.reportWord
  simp only [toNat_fields, BitVec.toNat_ofNat]
  omega

theorem toNat_noticesWord {s : State} (h : s.sn.queue.length ≤ 96) : (s.reportWord 13).toNat =
    s.sn.queue.length + (match s.sn.outstanding with
      | none => 0
      | some o => match o.kind with
        | .join => 16384
        | .cut => 32768
        | .leave => 49152) := by
  have hkind : 16384 * (noticeKindBits (s.sn.outstanding.map Outstanding.kind)).toNat = (match s.sn.outstanding with
      | none => 0
      | some o => match o.kind with
        | .join => 16384
        | .cut => 32768
        | .leave => 49152) := by
    cases s.sn.outstanding with
    | none => rfl
    | some o =>
      show 16384 * (noticeKindBits (some o.kind)).toNat = _
      dsimp only
      cases o.kind <;> rfl
  rw [← hkind]
  unfold State.reportWord
  simp only [toNat_fields, BitVec.toNat_ofNat]
  omega

theorem source_bits (a b c d : Bool) : let x : BitVec 4 := bit a ++ bit b ++ bit c ++ bit d
    x.getLsbD 3 = a ∧ x.getLsbD 2 = b ∧ x.getLsbD 1 = c ∧ x.getLsbD 0 = d := by
  revert a b c d
  decide

theorem and_ne_zero_iff (a b : BitVec 4) : (a &&& b != 0#4) = true ↔
    ∃ k, k < 4 ∧ a.getLsbD k = true ∧ b.getLsbD k = true := by
  rw [bne_iff_ne]
  refine ⟨fun h => ?_, fun ⟨k, _, ha, hb⟩ h => ?_⟩
  · refine Classical.byContradiction fun hnone => ?_
    refine h (BitVec.eq_of_getLsbD_eq fun k hk => ?_)
    rw [BitVec.getLsbD_and, BitVec.getLsbD_zero]
    exact Bool.eq_false_iff.mpr fun hboth => hnone ⟨k, hk, (Bool.and_eq_true_iff.mp hboth)⟩
  · have hbit := congrArg (·.getLsbD k) h
    simp [ha, hb] at hbit

/-! ## INSPECT and SLOTVIEW -/

/-- A number as its report word shows it: 0 when there is none, else with bit 15 set. -/
def shownOption : Option Nat → Nat
  | none => 0
  | some v => 32768 + v

section
variable {s : State} {c : Channel} {n : SlotNo}

theorem toNat_inspect_rp1 : (s.inspectResults c).rp1.toNat = 64 * (s.channel c).causeBits.toNat +
    32 * (bit (decide ((s.channel c).pending ≠ (s.channel c).active))).toNat + 16 * (bit (s.channel c).collapsed).toNat +
    (s.channel c).phase.code.toNat := by
  show (ChannelRecord.phaseWord _).toNat = _
  unfold ChannelRecord.phaseWord
  simp only [toNat_fields, BitVec.toNat_ofNat]
  omega

theorem toNat_inspect_rp2 : (s.inspectResults c).rp2.toNat = shownOption ((s.channel c).slot.map Fin.val) := by
  unfold State.inspectResults
  dsimp only
  cases (s.channel c).slot with
  | none => rfl
  | some m =>
    have hm := m.isLt
    simp only [toNat_fields, slotBits, BitVec.toNat_ofNat, Option.map_some, shownOption]
    omega

theorem toNat_inspect_rp3 : (s.inspectResults c).rp3.toNat =
    shownOption ((s.channel c).context.map fun k => 256 * k.val + (s.channel c).lag.val) := by
  unfold State.inspectResults
  dsimp only
  cases (s.channel c).context with
  | none => rfl
  | some k =>
    have hk := k.isLt
    have hlag := (s.channel c).lag.isLt
    simp only [toNat_fields, BitVec.toNat_ofNat, Option.map_some, shownOption]
    omega

theorem toNat_inspect_rp5 : (s.inspectResults c).rp5.toNat = shownOption ((s.channel c).idle.map BitVec.toNat) := by
  unfold State.inspectResults
  dsimp only
  cases (s.channel c).idle with
  | none => rfl
  | some p => exact (toNat_fields _ _).trans rfl

theorem toNat_inspect_rp6 : (s.inspectResults c).rp6.toNat =
    64 * min (s.shownHold (s.channel c)) 1023 + s.shownActivity c % 64 := by
  unfold State.inspectResults
  dsimp only
  rw [toNat_fields, toNat_shownCount, BitVec.toNat_ofNat]
  omega

theorem shownHold_eq (r : ChannelRecord) : s.shownHold r = (r.slot.map fun m => (s.slot m).holdCount).getD 0 := by
  unfold State.shownHold
  cases r.slot <;> rfl

theorem shownActivity_of_none (h : (s.channel c).context = none) : s.shownActivity c = 0 := by
  unfold State.shownActivity
  rw [State.contextOf_of_none h]

theorem shownActivity_of_some {k : CtxNo} {x : Context} (h : (s.channel c).context = some k) (hx : s.context k = some x) :
    s.shownActivity c = (x.window.filter id).length := by
  unfold State.shownActivity
  rw [State.contextOf_of_some h, hx]
  rfl

theorem toNat_slotview_rp1 : (s.slotviewResults n).rp1.toNat = (s.slot n).state.code.toNat := by
  show (0#13 ++ (s.slot n).state.code).toNat = _
  rw [toNat_fields]
  simp

theorem toNat_slotview_rp2 : (s.slotviewResults n).rp2.toNat = shownOption ((s.slot n).channel.map Fin.val) := by
  unfold State.slotviewResults
  dsimp only
  cases (s.slot n).channel with
  | none => rfl
  | some c =>
    have hc := c.isLt
    simp only [toNat_fields, BitVec.toNat_ofNat, Option.map_some, shownOption]
    omega

theorem toNat_slotview_rp5 : (s.slotviewResults n).rp5.toNat = shownOption ((s.slot n).visible.map fun a =>
    16384 * (bit a.damaged).toNat + 4096 * a.kind.code.toNat + a.word.toNat) := by
  unfold State.slotviewResults
  dsimp only
  cases (s.slot n).visible with
  | none => rfl
  | some a =>
    simp only [toNat_fields, BitVec.toNat_ofNat, Option.map_some, shownOption]
    omega

theorem getD_label (l : Option Word) : (l.getD 0).toNat = (l.map BitVec.toNat).getD 0 := by cases l <;> rfl

end

/-- Settles O30, word by word. -/
theorem reportWordsShowTheirOwners : Obligations.ReportWordsShowTheirOwners := by
  intro s
  obtain ⟨hevents, hlost, hlink, hdone⟩ := source_bits (decide (s.du.events ≠ [])) s.du.lost (!s.linkIsUp) s.du.doneSource
  refine ⟨?_, rfl, rfl, rfl, rfl, rfl, rfl, fun hnone => ?_, fun e rest he => ?_, fun hlength => ?_, toNat_linkWord s, ?_,
    ?_, fun hlength => ?_, toNat_noticesWord, fun hlength => ?_, ?_, hlost, ?_, hdone, ?_, and_ne_zero_iff _ _,
    fun c => ⟨?_, ?_, ?_, getD_label _, ?_, ?_, fun hnone => ?_, fun k y hk hy hwindow => ?_⟩,
    fun n => ⟨?_, ?_, ?_, ?_, ?_, ?_⟩⟩
  · refine (toNat_statusWord s).trans ?_
    rw [toNat_bit, toNat_bit, toNat_bit, toNat_outcomeBits] <;> rfl
  · show (eventWord s.du.events).toNat = 0
    rw [hnone]
    rfl
  · show (eventWord s.du.events).toNat = _
    rw [he, toNat_eventWord, toNat_eventNumber]
  · show (s.reportWord 8).toNat = _
    unfold State.reportWord
    simp only [toNat_fields, toNat_bit, BitVec.toNat_ofNat]
    omega
  · show (s.reportWord 10).toNat = _
    unfold State.reportWord
    simp only [toNat_fields, toNat_bit, BitVec.toNat_ofNat, Bool.beq_eq_decide_eq]
    omega
  · show (s.reportWord 11).toNat = _
    unfold State.reportWord State.freeContexts
    simp only [toNat_fields, BitVec.toNat_ofNat]
    omega
  · show (s.reportWord 12).toNat = _
    unfold State.reportWord
    simp only [toNat_fields, BitVec.toNat_ofNat]
    omega
  · show (s.reportWord 14).toNat = _
    unfold State.reportWord
    simp only [toNat_fields, toNat_bit, BitVec.toNat_ofNat]
    omega
  · exact (iff_of_eq (congrArg (· = true) hevents)).trans decide_eq_true_iff
  · refine (iff_of_eq (congrArg (· = true) hlink)).trans ?_
    rw [Bool.not_eq_true', ← Bool.not_eq_true, linkIsUp_iff]
  · show (s.reportWord 15).toNat = _
    unfold State.reportWord
    simp only [toNat_fields, BitVec.toNat_ofNat]
    omega
  · refine toNat_inspect_rp1.trans ?_
    rw [toNat_causeBits, toNat_bit, toNat_bit, toNat_phaseCode] <;> rfl
  · refine toNat_inspect_rp2.trans ?_
    cases (s.channel c).slot <;> rfl
  · refine toNat_inspect_rp3.trans ?_
    cases (s.channel c).context <;> rfl
  · refine toNat_inspect_rp5.trans ?_
    cases (s.channel c).idle <;> rfl
  · show (s.inspectResults c).rp6.toNat / 64 = _
    rw [toNat_inspect_rp6, shownHold_eq]
    omega
  · show (s.inspectResults c).rp6.toNat % 64 = _
    rw [toNat_inspect_rp6, shownActivity_of_none hnone]
    omega
  · show (s.inspectResults c).rp6.toNat % 64 = _
    rw [toNat_inspect_rp6, shownActivity_of_some hk hy]
    have hle : (y.window.filter id).length ≤ 32 := hwindow ▸ List.length_filter_le _ _
    omega
  · exact toNat_slotview_rp1.trans (toNat_slotStateCode _)
  · refine toNat_slotview_rp2.trans ?_
    cases (s.slot n).channel <;> rfl
  · show (match (s.slot n).channel with
      | none => 0
      | some c => (s.channel c).label.getD 0 : Word).toNat = _
    cases (s.slot n).channel with
    | none => rfl
    | some c => exact getD_label _
  · show (shownCount 8 (s.slot n).holdCount ++ shownCount 8 (s.slot n).orphanCount).toNat = _
    simp only [toNat_fields, toNat_shownCount]
    omega
  · refine toNat_slotview_rp5.trans ?_
    cases (s.slot n).visible with
    | none => rfl
    | some a =>
      show 32768 + (16384 * (bit a.damaged).toNat + 4096 * a.kind.code.toNat + a.word.toNat) = _
      rw [toNat_bit, toNat_arrivalCode]
      rfl
  · show (0#8 ++ shownCount 8 (s.slot n).liveRun).toNat = _
    simp only [toNat_fields, toNat_shownCount, BitVec.toNat_ofNat]
    omega

end Sys2Proof.Machine
end

section
/-! SUPPORT. What every step keeps in order: the routes of the channel records, the two maps, the event queue, the store queue
and the bytes of the store, operation by operation. -/

namespace Sys2Proof

namespace Assoc

variable {n : Nat} {α : Type}

theorem mem_keys_put {m : Assoc (Fin n) α} {k j : Fin n} {v : α} : j ∈ keys (put m k v) ↔ j = k ∨ j ∈ keys m := by
  induction m with
  | nil => exact List.mem_cons
  | cons p t ih =>
    obtain ⟨i, w⟩ := p
    rw [put_cons]
    by_cases hlt : k < i
    · rw [if_pos hlt]
      exact List.mem_cons
    · rw [if_neg hlt]
      by_cases heq : i = k
      · rw [if_pos heq]
        subst heq
        simp [keys]
      · rw [if_neg heq]
        simp only [keys, List.mem_cons, ih]
        exact or_left_comm

/-- A value put leaves the keys in ascending order, each listed once. -/
theorem pairwise_keys_put {m : Assoc (Fin n) α} (k : Fin n) (v : α) (h : (keys m).Pairwise (· < ·)) :
    (keys (put m k v)).Pairwise (· < ·) := by
  induction m with
  | nil => exact List.pairwise_singleton _ _
  | cons p t ih =>
    obtain ⟨i, w⟩ := p
    obtain ⟨habove, ht⟩ := List.pairwise_cons.mp h
    rw [put_cons]
    by_cases hlt : k < i
    · rw [if_pos hlt]
      exact List.pairwise_cons.mpr ⟨fun j hj => (List.mem_cons.mp hj).elim (fun e => e ▸ hlt)
        fun hj => Fin.lt_trans hlt (habove j hj), h⟩
    · rw [if_neg hlt]
      by_cases heq : i = k
      · rw [if_pos heq, ← heq]
        exact h
      · rw [if_neg heq]
        refine List.pairwise_cons.mpr ⟨fun j hj => ?_, ih ht⟩
        obtain rfl | hj := mem_keys_put.mp hj
        · exact Nat.lt_of_le_of_ne (Nat.not_lt.mp hlt) fun e => heq (Fin.ext e)
        · exact habove j hj

theorem keys_mapValues (f : Fin n → α → α) (m : Assoc (Fin n) α) : keys (mapValues f m) = keys m := by
  induction m with
  | nil => rfl
  | cons p t ih => exact congrArg (p.1 :: ·) ih

/-- A property of every value that a map keeps. -/
theorem forall_mapValues {P : Fin n × α → Prop} {f : Fin n → α → α} {m : Assoc (Fin n) α}
    (h : ∀ p ∈ m, P (p.1, f p.1 p.2)) : ∀ p ∈ mapValues f m, P p := by
  induction m with
  | nil => exact fun _ hp => nomatch hp
  | cons q t ih =>
    intro p hp
    obtain rfl | hp := List.mem_cons.mp hp
    · exact h q List.mem_cons_self
    · exact ih (fun p hp => h p (List.mem_cons_of_mem _ hp)) p hp

end Assoc

namespace Machine

/-- What stays in order from a state to a later one: each part, where it was so. -/
structure Orderly (r s : State) : Prop where
  routes : r.routesFollow → s.routesFollow
  channels : r.channelsInOrder → s.channelsInOrder
  slots : r.slotsInOrder → s.slotsInOrder
  events : r.eventsBounded → s.eventsBounded
  requests : r.storeQueueBounded → s.storeQueueBounded
  memory : r.memoryCanonical → s.memoryCanonical

/-- The part of a state that `Orderly` speaks of. -/
def State.ordered (s : State) : Assoc Channel ChannelRecord × Assoc SlotNo SlotEntry × List Event × List WriteRequest × Memory :=
  (s.cm, s.sn.slots, s.du.events, s.sc.queue, s.store.cells)

/-- A change of a channel record under which the pending route goes on following the phase. -/
def RoutesKept (f : ChannelRecord → ChannelRecord) : Prop :=
  ∀ x : ChannelRecord, x.pending = x.phase.route → (f x).pending = (f x).phase.route

theorem State.channel_routes {s : State} (h : s.routesFollow) (c : Channel) :
    (s.channel c).pending = (s.channel c).phase.route := by
  unfold State.channel
  cases hfind : Assoc.find s.cm c with
  | none => rfl
  | some x => exact h (c, x) (Assoc.mem_of_find hfind)

/-- A guarded claim that is made. -/
theorem of_guarded {p : Prop} [Decidable p] {x u : State} (h : (if p then some x else none) = some u) : p ∧ x = u := by
  split at h
  next hp => exact ⟨hp, Option.some.inj h⟩
  next => cases h

namespace Orderly

variable {r s t : State}

theorem refl (s : State) : Orderly s s := ⟨id, id, id, id, id, id⟩

theorem trans (h : Orderly r s) (h' : Orderly s t) : Orderly r t :=
  ⟨h'.routes ∘ h.routes, h'.channels ∘ h.channels, h'.slots ∘ h.slots, h'.events ∘ h.events, h'.requests ∘ h.requests,
    h'.memory ∘ h.memory⟩

/-- Another state with the same ordered part. -/
theorem same (h : Orderly r s) (e : t.ordered = s.ordered) : Orderly r t := by
  obtain ⟨hcm, hslots, hevents, hqueue, hcells⟩ : t.cm = s.cm ∧ t.sn.slots = s.sn.slots ∧ t.du.events = s.du.events ∧
      t.sc.queue = s.sc.queue ∧ t.store.cells = s.store.cells := by
    simpa only [State.ordered, Prod.mk.injEq] using e
  refine h.trans ⟨?_, ?_, ?_, ?_, ?_, ?_⟩
  · unfold State.routesFollow; rw [hcm]; exact id
  · unfold State.channelsInOrder; rw [hcm]; exact id
  · unfold State.slotsInOrder; rw [hslots]; exact id
  · unfold State.eventsBounded; rw [hevents]; exact id
  · unfold State.storeQueueBounded; rw [hqueue]; exact id
  · unfold State.memoryCanonical; rw [hcells]; exact id

/-! ## The operations -/

theorem raise (h : Orderly r s) (k : EventKind) (c : Channel) : Orderly r (s.raise k c) := by
  refine h.trans ⟨?_, ?_, ?_, fun hs => State.raise_events_length _ _ _ hs, ?_, ?_⟩ <;>
  · rw [raise_eq]
    exact id

theorem setChannel (h : Orderly r s) (c : Channel) {x : ChannelRecord}
    (hx : s.routesFollow → x.pending = x.phase.route) : Orderly r (s.setChannel c x) :=
  h.trans ⟨fun hs => Assoc.forall_put hs (hx hs), Assoc.pairwise_keys_put c x, id, id, id, id⟩

theorem modChannel (h : Orderly r s) (c : Channel) {f : ChannelRecord → ChannelRecord} (hf : RoutesKept f) :
    Orderly r (s.modChannel c f) :=
  h.setChannel c fun hs => hf _ (State.channel_routes hs c)

theorem setSlot (h : Orderly r s) (n : SlotNo) (e : SlotEntry) : Orderly r (s.setSlot n e) :=
  h.trans ⟨id, id, Assoc.pairwise_keys_put n e, id, id, id⟩

theorem modSlot (h : Orderly r s) (n : SlotNo) (f : SlotEntry → SlotEntry) : Orderly r (s.modSlot n f) := h.setSlot n _

theorem mapSlots (h : Orderly r s) (f : SlotNo → SlotEntry → SlotEntry)
    (e : t.ordered = (s.cm, Assoc.mapValues f s.sn.slots, s.du.events, s.sc.queue, s.store.cells)) : Orderly r t := by
  let u : State := { s with sn := { s.sn with slots := Assoc.mapValues f s.sn.slots } }
  have hu : Orderly r u := h.trans ⟨id, id, fun hs => by
    show (Assoc.keys (Assoc.mapValues f s.sn.slots)).Pairwise _
    rw [Assoc.keys_mapValues]
    exact hs, id, id, id⟩
  exact hu.same e

theorem mapChannels (h : Orderly r s) {f : Channel → ChannelRecord → ChannelRecord} (hf : ∀ c, RoutesKept (f c)) :
    Orderly r { s with cm := Assoc.mapValues f s.cm } :=
  h.trans ⟨fun hs => Assoc.forall_mapValues fun p hp => hf p.1 p.2 (hs p hp), fun hs => by
    show (Assoc.keys (Assoc.mapValues f s.cm)).Pairwise _
    rw [Assoc.keys_mapValues]
    exact hs, id, id, id, id⟩

theorem modContext (h : Orderly r s) (k : CtxNo) (f : Context → Context) : Orderly r (s.modContext k f) := by
  unfold State.modContext
  split
  · exact h
  · exact h.same rfl

theorem modContextOf (h : Orderly r s) (c : Channel) (f : Context → Context) : Orderly r (s.modContextOf c f) := by
  unfold State.modContextOf
  split
  · exact h
  · exact h.modContext _ _

theorem handBack (h : Orderly r s) (c : Channel) : Orderly r (s.handBack c) := by
  unfold State.handBack
  split
  · exact h.modChannel c fun _ hx => hx
  · exact (h.same (t := s.freeContext _) rfl).modChannel c fun _ hx => hx

theorem releaseSlotOf (h : Orderly r s) (c : Channel) : Orderly r (s.releaseSlotOf c) := by
  unfold State.releaseSlotOf
  split
  · exact h
  · exact (h.modSlot _ _).modChannel c fun _ hx => hx

theorem withdrawNotice (h : Orderly r s) (k : NoticeKind) (c : Channel) : Orderly r (s.withdrawNotice k c) := by
  unfold State.withdrawNotice
  dsimp only
  split <;> exact h.same rfl

theorem dropCut (h : Orderly r s) (c : Channel) : Orderly r (s.dropCut c) := (h.withdrawNotice .cut c).same rfl

theorem addDue (h : Orderly r s) (d : Due) : Orderly r (s.addDue d) := h.same rfl

theorem enqueueProof (h : Orderly r s) (c : Channel) : Orderly r (s.enqueueProof c) := h.same rfl

theorem dequeueProof (h : Orderly r s) (c : Channel) : Orderly r (s.dequeueProof c) := h.same rfl

theorem appendNotice (h : Orderly r s) (k : NoticeKind) (c : Channel) : Orderly r (s.appendNotice k c) := h.same rfl

theorem kickStore (h : Orderly r s) : Orderly r s.kickStore := by
  unfold State.kickStore
  split
  · exact h.addDue _
  · exact h

/-- A claim taken, or a stale one. -/
theorem getD {o : Option State} (ho : ∀ u, o = some u → Orderly r u) (h : Orderly r s) : Orderly r (o.getD s) := by
  cases o with
  | none => exact h
  | some u => exact ho u rfl

/-- A walk whose every step keeps the order. -/
theorem foldl {α : Type} {f : State → α → State} (hf : ∀ {s a}, Orderly r s → Orderly r (f s a)) (l : List α)
    (h : Orderly r s) : Orderly r (l.foldl f s) := by
  induction l generalizing s with
  | nil => exact h
  | cons a l ih => exact ih (hf h)

theorem ite_keeps {p : Prop} [Decidable p] {u : State} (ht : Orderly r t) (hu : Orderly r u) :
    Orderly r (if p then t else u) := by
  split
  · exact ht
  · exact hu

theorem ite_due {p : Prop} [Decidable p] {d : Due} (h : Orderly r s) : Orderly r (if p then s.addDue d else s) := by
  split
  · exact h.addDue d
  · exact h

/-! ## The claims -/

theorem claimAssign (h : Orderly r s) {c : Channel} {k : CtxNo} (ht : s.claimAssign c k = some t) : Orderly r t := by
  unfold State.claimAssign at ht
  split at ht
  · cases ht
    dsimp only
    split
    · exact (h.modChannel c fun _ _ => rfl).appendNotice _ _
    · exact h.modChannel c fun _ _ => rfl
  · cases ht
    exact h.modChannel c fun _ _ => rfl
  · cases ht

theorem assignHead (h : Orderly r s) (ht : s.assignHead = some t) : Orderly r t := by
  unfold State.assignHead at ht
  split at ht
  · cases ht
    exact getD (fun _ hu => claimAssign (by exact h.same rfl) hu) (h.same rfl)
  · cases ht

theorem assignUpTo (h : Orderly r s) (n : Nat) : Orderly r (State.assignUpTo n s) := by
  induction n generalizing s with
  | zero => exact h
  | succ n ih =>
    unfold State.assignUpTo
    split
    next => exact h
    next u hu => exact ih (h.assignHead hu)

theorem assignByJoin (h : Orderly r s) {c : Channel} {n : SlotNo} (ht : s.assignByJoin c n = some t) : Orderly r t := by
  unfold State.assignByJoin at ht
  split at ht
  · cases ht
  · split at ht
    · cases ht
      exact (((h.same rfl : Orderly r ((s.setContext _ (Context.fresh c)).dequeueProof c)).modSlot _ _).modChannel c
        fun _ _ => rfl).raise _ _
    · cases ht

theorem claimSlotReserved (h : Orderly r s) {c : Channel} {n : SlotNo} (ht : s.claimSlotReserved c n = some t) :
    Orderly r t := by
  obtain ⟨_, rfl⟩ := of_guarded ht
  exact (h.modSlot _ _).modChannel c fun _ hx => hx

theorem claimSlotReleased (h : Orderly r s) {c : Channel} {n : SlotNo} (ht : s.claimSlotReleased c n = some t) :
    Orderly r t := by
  obtain ⟨_, rfl⟩ := of_guarded ht
  exact h.modChannel c fun _ hx => hx

theorem claimJoinAgreed (h : Orderly r s) {c : Channel} {n : SlotNo} (ht : s.claimJoinAgreed c n = some t) :
    Orderly r t := by
  obtain ⟨_, rfl⟩ := of_guarded ht
  exact (((h.modSlot _ _).modChannel c fun _ _ => rfl).modContextOf _ _).raise _ _

theorem endJoin (h : Orderly r s) (c : Channel) (k : EventKind) : Orderly r (s.endJoin c k) :=
  (((((h.handBack c).withdrawNotice .join c).releaseSlotOf c).modChannel c fun _ _ => rfl).enqueueProof c).raise k c

theorem claimJoinFailed (h : Orderly r s) {c : Channel} (ht : s.claimJoinFailed c = some t) : Orderly r t := by
  obtain ⟨_, rfl⟩ := of_guarded ht
  exact h.endJoin _ _

theorem claimJoinTimeout (h : Orderly r s) {c : Channel} {k : CtxNo} (ht : s.claimJoinTimeout c k = some t) :
    Orderly r t := by
  obtain ⟨_, rfl⟩ := of_guarded ht
  exact h.endJoin _ _

theorem claimProofSuccess (h : Orderly r s) {c : Channel} {k : CtxNo} {l : Lag} (ht : s.claimProofSuccess c k l = some t) :
    Orderly r t := by
  obtain ⟨_, rfl⟩ := of_guarded ht
  exact ((h.modChannel c fun _ _ => rfl).modContext _ _).raise _ _

theorem claimProofFailure (h : Orderly r s) {c : Channel} {k : CtxNo} (ht : s.claimProofFailure c k = some t) :
    Orderly r t := by
  obtain ⟨_, rfl⟩ := of_guarded ht
  exact ((((h.handBack c).releaseSlotOf c).modChannel c fun _ _ => rfl).enqueueProof c).raise _ _

theorem claimDemotion (h : Orderly r s) {c : Channel} {k : CtxNo} (ht : s.claimDemotion c k = some t) : Orderly r t := by
  obtain ⟨_, rfl⟩ := of_guarded ht
  have hmoved := (h.modChannel c (f := fun r => { r.enter .shadow with lag := 0 }) fun _ _ => rfl).modContext k Context.restart
  split
  · exact (hmoved.dropCut c).raise _ _
  · exact hmoved.raise _ _

theorem claimCut (h : Orderly r s) {c : Channel} (ht : s.claimCut c = some t) : Orderly r t := by
  obtain ⟨_, rfl⟩ := of_guarded ht
  exact ((h.modChannel c fun _ _ => rfl).modContextOf _ _).appendNotice _ _

theorem claimPeerCut (h : Orderly r s) {c : Channel} {n : SlotNo} (ht : s.claimPeerCut c n = some t) : Orderly r t := by
  unfold State.claimPeerCut at ht
  split at ht
  · split at ht <;> cases ht
    · exact h.modChannel c fun _ _ => rfl
    · exact h.same rfl
    · exact h
  · cases ht

theorem claimCutFailed (h : Orderly r s) {c : Channel} {n : SlotNo} (ht : s.claimCutFailed c n = some t) : Orderly r t := by
  obtain ⟨_, rfl⟩ := of_guarded ht
  exact (h.modChannel c fun _ _ => rfl).raise _ _

theorem startCarriage (h : Orderly r s) (c : Channel) : Orderly r (s.startCarriage c) :=
  (h.modChannel c fun _ _ => rfl).modContextOf _ _

theorem claimCollapse (h : Orderly r s) {c : Channel} {k : CtxNo} (ht : s.claimCollapse c k = some t) : Orderly r t := by
  obtain ⟨_, rfl⟩ := of_guarded ht
  exact ((h.handBack c).modChannel c fun _ _ => rfl).raise _ _

/-- A request appended to a store queue that is not full. -/
theorem appendStore (h : Orderly r s) (x : WriteRequest) (hroom : s.storeFull = false) : Orderly r (s.appendStore x) := by
  have hlength : s.sc.queue.length < Config.storeCapacity := Nat.lt_of_not_le (of_decide_eq_false hroom)
  refine kickStore (h.trans ⟨id, id, id, id, fun _ => ?_, id⟩)
  show (s.sc.queue ++ [x]).length ≤ _
  rw [List.length_append]
  exact hlength

theorem claimRetire (h : Orderly r s) {c : Channel} (hroom : s.storeFull = false) (ht : s.claimRetire c = some t) :
    Orderly r t := by
  unfold State.claimRetire at ht
  dsimp only at ht
  split at ht
  · obtain ⟨_, rfl⟩ := of_guarded ht
    exact (h.modChannel c fun _ _ => rfl).appendStore _ hroom
  · cases ht

theorem claimRecall (h : Orderly r s) {c : Channel} (hroom : s.storeFull = false) (ht : s.claimRecall c = some t) :
    Orderly r t := by
  unfold State.claimRecall at ht
  dsimp only at ht
  split at ht
  · split at ht <;> cases ht
    · exact (h.modChannel c fun _ _ => rfl).appendStore _ hroom
    · exact (h.modChannel c fun _ _ => rfl).appendStore _ hroom
  · cases ht

theorem fall (h : Orderly r s) (c : Channel) : Orderly r (s.fall c) := (h.modChannel c fun _ _ => rfl).enqueueProof c

theorem claimStoreDone (h : Orderly r s) {c : Channel} (ht : s.claimStoreDone c = some t) : Orderly r t := by
  unfold State.claimStoreDone at ht
  split at ht <;> cases ht
  · split
    · exact (h.modChannel c fun _ _ => rfl).raise _ _
    · exact (h.modChannel c fun _ _ => rfl).raise _ _
  · split
    · exact (h.modChannel c fun _ _ => rfl).raise _ _
    · exact (h.fall c).raise _ _

theorem claimStoreFailed (h : Orderly r s) {c : Channel} (ht : s.claimStoreFailed c = some t) : Orderly r t := by
  unfold State.claimStoreFailed at ht
  split at ht <;> cases ht
  · split
    · exact (h.modChannel c fun _ _ => rfl).raise _ _
    · exact (h.fall c).raise _ _
  · refine Orderly.raise ?_ _ _
    split
    · split
      · exact h.modChannel c fun _ _ => rfl
      · exact h.modChannel c fun _ _ => rfl
    · exact h.modChannel c fun _ _ => rfl

theorem claimSilence (h : Orderly r s) {c : Channel} {n : SlotNo} (ht : s.claimSilence c n = some t) : Orderly r t := by
  obtain ⟨_, rfl⟩ := of_guarded ht
  exact (h.modChannel c fun _ _ => rfl).raise _ _

theorem claimHeard (h : Orderly r s) {c : Channel} {n : SlotNo} (ht : s.claimHeard c n = some t) : Orderly r t := by
  obtain ⟨_, rfl⟩ := of_guarded ht
  have hmoved := h.modChannel c (f := fun r => { r.enter .retired with cause := none }) fun _ _ => rfl
  split
  · exact hmoved.raise _ _
  · exact hmoved

theorem loseCarrier (h : Orderly r s) (c : Channel) : Orderly r (s.loseCarrier c) := by
  unfold State.loseCarrier
  split
  · exact h.modContextOf _ _
  · exact (h.modContextOf _ _).modChannel c fun _ _ => rfl
  · exact ((h.modContextOf _ _).modChannel c fun _ _ => rfl).dropCut c
  · exact (h.handBack c).fall c
  · exact h.modChannel c fun _ _ => rfl
  · exact h

theorem claimCarrierLoss (h : Orderly r s) : Orderly r s.claimCarrierLoss := foldl (fun h => h.loseCarrier _) _ h

theorem claimWithdraw (h : Orderly r s) {c : Channel} (ht : s.claimWithdraw c = some t) : Orderly r t := by
  have toLeaving {u : State} (hu : Orderly r u) : Orderly r (((u.dropCut c).modChannel c
      fun r => { r.enter .leaving with collapsed := false, lag := 0 }).appendNotice .leave c) :=
    ((hu.dropCut c).modChannel c fun _ _ => rfl).appendNotice _ _
  unfold State.claimWithdraw at ht
  dsimp only at ht
  split at ht <;> cases ht
  · exact (h.dequeueProof c).modChannel c fun _ _ => rfl
  · exact (((h.handBack c).withdrawNotice .join c).releaseSlotOf c).modChannel c fun _ _ => rfl
  · exact toLeaving (h.handBack c)
  · exact toLeaving (h.handBack c)
  · exact toLeaving (h.handBack c)
  · exact toLeaving (h.handBack c)
  · exact toLeaving (h.dequeueProof c)

theorem claimLeaveResolved (h : Orderly r s) {c : Channel} {n : SlotNo} {b : Bool}
    (ht : s.claimLeaveResolved c n b = some t) : Orderly r t := by
  obtain ⟨_, rfl⟩ := of_guarded ht
  have hnotice := h.withdrawNotice .leave c
  split
  · exact ((hnotice.modSlot _ _).modChannel c fun _ _ => rfl).raise _ _
  · exact ((hnotice.modSlot _ _).modChannel c fun _ _ => rfl).raise _ _

theorem claimGone (h : Orderly r s) {c : Channel} {n : SlotNo} {k : EventKind} (ht : s.claimGone c n k = some t) :
    Orderly r t := by
  obtain ⟨_, rfl⟩ := of_guarded ht
  have hleft := ((h.handBack c).releaseSlotOf c).dropCut c
  split
  · exact (((hleft.dequeueProof c).modChannel c fun _ _ => rfl).enqueueProof c).raise _ _
  · exact ((hleft.modChannel c fun _ _ => rfl).enqueueProof c).raise _ _

theorem routesKept_abandoned : RoutesKept ChannelRecord.abandoned := by
  intro x hx
  unfold ChannelRecord.abandoned
  split
  · exact hx
  · rfl

theorem claimAbandon (h : Orderly r s) : Orderly r s.claimAbandon.1 :=
  (h.mapChannels fun _ => routesKept_abandoned).mapSlots (t := s.claimAbandon.1)
    (fun _ e => if s.abandonsSlot e = true then e.release else e) rfl

theorem enrolRange (h : Orderly r s) (first label : Nat) (idle : Pattern) (count : Nat) :
    Orderly r (s.enrolRange first label idle count).1 := by
  induction count generalizing s first label with
  | zero => exact h
  | succ count ih =>
    unfold State.enrolRange
    dsimp only
    split
    · exact ih ((h.modChannel _ fun _ _ => rfl).enqueueProof _) _ _
    · exact ih h _ _

/-! ## Carriage -/

theorem chooseWord (h : Orderly r s) (c : Channel) : Orderly r (s.chooseWord c) := by
  unfold State.chooseWord
  split
  · exact h
  · dsimp only
    refine ite_due ?_
    split
    · exact (h.same (t := s.setRegister _ _) rfl).modContextOf _ _
    · exact h.same rfl

theorem quietStep (h : Orderly r s) (c : Channel) : Orderly r (s.quietStep c) := by
  unfold State.quietStep
  split
  · split
    · exact h
    · split
      · exact getD (fun _ => h.claimCollapse) h
      · exact h
  · exact h

theorem carryStep (h : Orderly r s) (c : Channel) : Orderly r (s.carryStep c) := by
  unfold State.carryStep
  split
  · exact h
  · split
    · exact h
    · exact (h.quietStep c).chooseWord c

theorem cutNow (h : Orderly r s) (c : Channel) (k : EventKind) : Orderly r (s.cutNow c k) :=
  (((h.startCarriage c).same (t := (s.startCarriage c).setRegister _ _) rfl).chooseWord c).raise k c

theorem takeCutDue (h : Orderly r s) (c : Channel) (n : SlotNo) : Orderly r (s.takeCutDue c n) := by
  refine getD (fun u hu => ?_) h
  obtain ⟨_, rfl⟩ := of_guarded hu
  exact h.cutNow _ _

theorem takeFollowCut (h : Orderly r s) (c : Channel) (n : SlotNo) : Orderly r (s.takeFollowCut c n) := by
  unfold State.takeFollowCut
  split
  · refine getD (fun u hu => ?_) (h.modSlot _ _)
    obtain ⟨_, rfl⟩ := of_guarded hu
    exact ((h.modSlot _ _).dropCut c).cutNow _ _
  · exact h

theorem takeGuardEnd (h : Orderly r s) (c : Channel) : Orderly r (s.takeGuardEnd c) := by
  unfold State.takeGuardEnd
  split
  · exact h
  · exact ((h.same (t := s.setRegister _ _) rfl).quietStep c).chooseWord c

theorem takeSlotSilent (h : Orderly r s) (c : Channel) : Orderly r (s.takeSlotSilent c) := by
  unfold State.takeSlotSilent
  split
  · exact h
  · split
    · dsimp only
      split
      · exact (h.same (t := s.setRegister _ _) rfl).raise _ _
      · exact h.same rfl
    · exact h

/-! ## Notices -/

theorem joinSetback (h : Orderly r s) (c : Channel) (b : Bool) : Orderly r (s.joinSetback c b) := by
  have hcount := h.modContextOf c Context.moreJoinAttempts
  unfold State.joinSetback
  dsimp only
  split
  · exact hcount.addDue _
  · split
    · exact hcount.modContextOf _ _
    · exact hcount.appendNotice _ _

theorem cutSetback (h : Orderly r s) (c : Channel) (n : SlotNo) : Orderly r (s.cutSetback c n) := by
  have hcount := h.modContextOf c Context.moreCutAttempts
  unfold State.cutSetback
  dsimp only
  split
  · exact hcount.addDue _
  · exact hcount.appendNotice _ _

theorem freeReserved (h : Orderly r s) (c : Channel) (n : SlotNo) : Orderly r (s.freeReserved c n) :=
  getD (fun _ => (h.modSlot _ _).claimSlotReleased) (h.modSlot _ _)

theorem barReserved (h : Orderly r s) (c : Channel) (n : SlotNo) : Orderly r (s.barReserved c n) :=
  getD (fun _ => (h.modSlot _ _).claimSlotReleased) (h.modSlot _ _)

theorem joinReply (h : Orderly r s) (o : Outstanding) (x : Reply) : Orderly r (s.joinReply o x) := by
  unfold State.joinReply
  split
  · exact getD (fun _ => h.claimJoinAgreed) (h.modSlot _ _)
  · exact (h.freeReserved _ _).joinSetback _ _
  · exact (h.barReserved _ _).joinSetback _ _
  · exact (h.freeReserved _ _).addDue _

theorem cutReply (h : Orderly r s) (o : Outstanding) (x : Reply) : Orderly r (s.cutReply o x) := by
  unfold State.cutReply
  split
  · exact h.same rfl
  · split
    · exact h.appendNotice _ _
    · exact h.cutSetback _ _

theorem leaveReply (h : Orderly r s) (o : Outstanding) (x : Reply) : Orderly r (s.leaveReply o x) :=
  getD (fun _ => h.claimLeaveResolved) h

theorem takeReply (h : Orderly r s) (x : Option ReplyField) : Orderly r (s.takeReply x) := by
  have hclear : Orderly r s.clearOutstanding := h.same rfl
  unfold State.takeReply
  split
  · split
    · dsimp only
      split
      · exact hclear.joinReply _ _
      · exact hclear.cutReply _ _
      · exact hclear.leaveReply _ _
    · exact h
  · exact h

theorem reportSent (h : Orderly r s) : Orderly r s.reportSent := by
  unfold State.reportSent
  split
  · exact h
  · dsimp only
    split
    · exact h.same rfl
    · split
      · split <;> exact h.same rfl
      · exact h.same rfl

theorem takeNoticeExpiry (h : Orderly r s) (x : BitVec 4) : Orderly r (s.takeNoticeExpiry x) := by
  have hclear : Orderly r s.clearOutstanding := h.same rfl
  unfold State.takeNoticeExpiry
  split
  · exact h
  · split
    · dsimp only
      split
      · exact (hclear.freeReserved _ _).joinSetback _ _
      · exact hclear.cutSetback _ _
      · exact getD (fun _ => hclear.claimLeaveResolved) hclear
    · exact h

theorem takeJoinFailed (h : Orderly r s) (c : Channel) : Orderly r (s.takeJoinFailed c) :=
  getD (fun _ => h.claimJoinFailed) h

theorem takeCutFailed (h : Orderly r s) (c : Channel) (n : SlotNo) : Orderly r (s.takeCutFailed c n) :=
  getD (fun _ => h.claimCutFailed) h

theorem takeJoinTimeout (h : Orderly r s) (c : Channel) (k : CtxNo) : Orderly r (s.takeJoinTimeout c k) := by
  unfold State.takeJoinTimeout
  split
  · exact getD (fun _ => h.claimJoinTimeout) h
  · exact h

theorem takeRetryGapEnd (h : Orderly r s) (c : Channel) (k : CtxNo) : Orderly r (s.takeRetryGapEnd c k) := by
  unfold State.takeRetryGapEnd
  split
  · exact h.appendNotice _ _
  · exact h

theorem takeBarClockExpiry (h : Orderly r s) (n : SlotNo) : Orderly r (s.takeBarClockExpiry n) := by
  unfold State.takeBarClockExpiry
  split
  · exact h.modSlot _ _
  · exact h

theorem placeHead (h : Orderly r s) (x : Request) : Orderly r (s.placeHead x) := by
  unfold State.placeHead
  split
  · split
    · exact getD (fun _ => h.claimJoinFailed) h
    · split
      next => exact h
      next u hu => exact (h.claimSlotReserved hu).same rfl
  · split
    · exact h
    · exact h.same rfl
  · split
    · exact h
    · exact (h.modSlot _ _).same rfl

theorem placeUpTo (h : Orderly r s) (n : Nat) : Orderly r (State.placeUpTo n s) := by
  induction n generalizing s with
  | zero => exact h
  | succ n ih =>
    unfold State.placeUpTo
    split
    · exact h
    · split
      · exact h
      · exact ih (placeHead (by exact h.same rfl) _)

/-! ## The peer's notices and the reports -/

theorem judgeJoin (h : Orderly r s) (n : SlotNo) (l : Word) : Orderly r (s.judgeJoin n l).1 := by
  unfold State.judgeJoin
  dsimp only
  split
  · exact h
  · split
    · exact h
    · split
      · exact h
      · split
        · exact h
        · split
          · split
            next u hu => exact h.claimJoinAgreed hu
            next => exact h
          · split
            next u hu => exact h.assignByJoin hu
            next => exact h
          all_goals exact h

theorem agreeCut (h : Orderly r s) (c : Channel) (n : SlotNo) (m : Nat) : Orderly r (s.agreeCut c n m).1 := by
  unfold State.agreeCut
  split
  next u hu => exact (h.claimPeerCut hu).same rfl
  next => exact h

theorem judgeCut (h : Orderly r s) (n : SlotNo) (m : Nat) : Orderly r (s.judgeCut n m).1 := by
  unfold State.judgeCut
  dsimp only
  split
  · split
    · exact h.agreeCut _ _ _
    · split
      · split
        · exact h
        · exact agreeCut (by exact h.same rfl) _ _ _
      · exact h.agreeCut _ _ _
    all_goals exact h
  · exact h

theorem judgeLeave (h : Orderly r s) (n : SlotNo) : Orderly r (s.judgeLeave n).1 := by
  unfold State.judgeLeave
  split
  · exact h
  · split
    · exact getD (fun _ => h.claimGone) h
    · split
      · exact getD (fun _ => h.claimLeaveResolved) h
      · split <;> exact h

theorem judgeNotice (h : Orderly r s) (k : NoticeKind) (f : NoticeField) : Orderly r (s.judgeNotice k f) := by
  unfold State.judgeNotice
  cases k with
  | join => exact (h.judgeJoin f.slot f.label).same rfl
  | cut => exact (h.judgeCut f.slot f.countdown.toNat).same rfl
  | leave => exact (h.judgeLeave f.slot).same rfl

theorem takeReplyClaim (h : Orderly r s) (d : Due) : Orderly r (s.takeReplyClaim d) := by
  unfold State.takeReplyClaim
  split
  · exact h.takeJoinFailed _
  · exact h.takeCutFailed _ _
  · exact h.addDue _

theorem takeReplyClaims (h : Orderly r s) : Orderly r s.takeReplyClaims :=
  foldl (fun h => h.takeReplyClaim _) _ (h.same rfl)

theorem takeNotice (h : Orderly r s) (f : NoticeField) : Orderly r (s.takeNotice f) := by
  unfold State.takeNotice
  split
  · exact h
  · split
    · exact h.takeReplyClaims.judgeNotice _ _
    · split
      · exact h
      · exact h.takeReplyClaims.judgeNotice _ _

theorem hear (h : Orderly r s) (n : SlotNo) : Orderly r (s.hear n) := by
  unfold State.hear
  split
  · exact h
  · exact getD (fun _ => h.claimHeard) h

theorem takeHeardFrom (h : Orderly r s) (l : List Due) : Orderly r (State.takeHeardFrom l s) := by
  induction l generalizing s with
  | nil => exact h
  | cons d l ih =>
    unfold State.takeHeardFrom
    split
    next hd =>
      cases hd
      exact ih (hear (by exact h.same rfl) _)
    next => exact h

theorem takeHeard (h : Orderly r s) : Orderly r s.takeHeard := h.takeHeardFrom _

theorem eachSlot {test : State → SlotNo → Channel → Option ArrivalKind → State}
    (htest : ∀ {s n c k}, Orderly r s → Orderly r (test s n c k)) (h : Orderly r s) (named : Assoc SlotNo ArrivalKind) :
    Orderly r (s.eachSlot named test) := by
  refine foldl (fun hu => ?_) _ h
  unfold State.onSlot
  dsimp only
  split
  · exact htest hu
  · exact hu

theorem aheadTest (h : Orderly r s) (n : SlotNo) (c : Channel) (k : Option ArrivalKind) :
    Orderly r (s.aheadTest n c k) := by
  have hfollow : Orderly r (s.followTest n (s.channel c).phase k) := by
    unfold State.followTest
    dsimp only
    split
    · exact h.modSlot _ _
    · exact h
  unfold State.aheadTest State.peerAheadTest
  dsimp only
  split
  · exact (hfollow.modSlot _ _).raise _ _
  · exact hfollow

theorem shadowTest (h : Orderly r s) (n : SlotNo) (c : Channel) (k : Option ArrivalKind) :
    Orderly r (s.shadowTest n c k) := by
  unfold State.shadowTest
  split
  · exact h.addDue _
  · exact h

theorem silenceTest (h : Orderly r s) (n : SlotNo) (c : Channel) (k : Option ArrivalKind) :
    Orderly r (s.silenceTest n c k) := by
  unfold State.silenceTest
  dsimp only
  split
  · exact h.addDue _
  · exact h

theorem heardTest (h : Orderly r s) (n : SlotNo) (c : Channel) (k : Option ArrivalKind) :
    Orderly r (s.heardTest n c k) := by
  unfold State.heardTest
  split
  · exact h.addDue _
  · exact h

theorem report (h : Orderly r s) (named : Assoc SlotNo ArrivalKind) : Orderly r (s.report named) := by
  have hstep := eachSlot (test := State.stepTest) (fun h => h.modSlot _ _) h named
  have hahead := eachSlot (test := State.aheadTest) (fun h => h.aheadTest _ _ _) hstep named
  have hshadow := eachSlot (test := State.shadowTest) (fun h => h.shadowTest _ _ _) hahead named
  have hsilence := eachSlot (test := State.silenceTest) (fun h => h.silenceTest _ _ _) hshadow named
  exact (eachSlot (test := State.heardTest) (fun h => h.heardTest _ _ _) hsilence named).takeHeard

theorem takeOrphanTest (h : Orderly r s) (n : SlotNo) : Orderly r (s.takeOrphanTest n) := by
  unfold State.takeOrphanTest
  dsimp only
  split
  · exact h
  · split
    · split
      · exact getD (fun _ => h.claimGone) h
      · exact getD (fun _ => h.claimSilence) h
    · exact h

theorem takePeerShadow (h : Orderly r s) (n : SlotNo) : Orderly r (s.takePeerShadow n) := by
  unfold State.takePeerShadow
  split
  · exact h
  · split
    · exact (h.modSlot _ _).raise _ _
    · exact h

/-! ## The link -/

theorem storeRecord (h : Orderly r s) (x : ReceivedRecord) : Orderly r (s.storeRecord x) := by
  unfold State.storeRecord
  split
  · exact h.modSlot _ _
  · exact h

theorem useFrame (h : Orderly r s) (f : ReceivedFrame) : Orderly r (s.useFrame f) := by
  have hrecords := foldl (f := State.storeRecord) (fun h => h.storeRecord _) f.records ((h.takeReply f.reply).takeNotice f.notice)
  let v : State := f.records.foldl State.storeRecord ((s.takeReply f.reply).takeNotice f.notice)
  exact report (hrecords.same (t := { v with cl := { v.cl with markGood := true } }) rfl) _

theorem takeLinkUp (h : Orderly r s) : Orderly r s.takeLinkUp := by
  unfold State.takeLinkUp
  split
  · let u : State := { s with cl := { s.cl with link := .up, lossCount := 0, huntCount := 0, inHand := none } }
    exact ((h.same (t := u) rfl).raise _ _).useFrame _
  · exact h

theorem noticesLinkLost (h : Orderly r s) : Orderly r s.noticesLinkLost := h.mapSlots (fun _ e => e.linkLost) rfl

theorem takeLinkDown (h : Orderly r s) : Orderly r s.takeLinkDown := by
  unfold State.takeLinkDown
  split
  · exact (raise (h.same (t := s.goDark) rfl) _ _).claimCarrierLoss.noticesLinkLost
  · exact h

theorem takeHuntLoss (h : Orderly r s) : Orderly r s.takeHuntLoss := by
  unfold State.takeHuntLoss
  split
  · exact h.same rfl
  · exact h

theorem takeClash (h : Orderly r s) : Orderly r s.takeClash := by
  have hclash : Orderly r { s with cl := { s.cl with clash := true } } := h.same rfl
  unfold State.takeClash
  dsimp only
  split <;> split
  · exact hclash.same rfl
  · exact (hclash.raise _ _).same rfl
  · exact hclash
  · exact hclash.raise _ _

theorem takeValid (h : Orderly r s) (f : ReceivedFrame) : Orderly r (s.takeValid f) := by
  unfold State.takeValid
  dsimp only
  split
  · exact h.same rfl
  · refine ite_keeps ?_ (h.same rfl)
    exact h.same rfl
  · exact useFrame (by exact h.same rfl) f

theorem takeInvalid (h : Orderly r s) : Orderly r s.takeInvalid := by
  have hempty : Orderly r { s with
      sn := { s.sn with slots := Assoc.mapValues (fun _ e => { e with latch := none }) s.sn.slots }
      cl := { s.cl with markGood := false } } := h.mapSlots _ rfl
  unfold State.takeInvalid
  dsimp only
  split
  · exact hempty.same rfl
  · exact hempty

theorem takeArrival (h : Orderly r s) (bytes : List Byte) : Orderly r (s.takeArrival bytes) := by
  unfold State.takeArrival
  split
  · exact h.takeInvalid
  · dsimp only
    split
    · exact takeClash (by exact h.same rfl)
    · exact takeValid (by exact h.same rfl) _

/-! ## The due steps -/

theorem takeStoreWriteStart (h : Orderly r s) : Orderly r s.takeStoreWriteStart := by
  unfold State.takeStoreWriteStart
  split
  next hqueue =>
    refine h.trans ⟨id, id, id, id, fun hs => ?_, id⟩
    unfold State.storeQueueBounded at hs
    rw [hqueue] at hs
    exact Nat.le_trans (Nat.le_succ _) hs
  next => exact h

theorem takeReinstatementRetry (h : Orderly r s) : Orderly r s.takeReinstatementRetry := by
  unfold State.takeReinstatementRetry
  split
  · exact h.same rfl
  · exact h

theorem effect (h : Orderly r s) (d : Due) : Orderly r (effect d s) := by
  cases d with
  | contextAssign => exact h.assignUpTo _
  | noticeOutstanding => exact h.placeUpTo _
  | joinTimeout c k => exact h.takeJoinTimeout c k
  | retryGapEnd c k => exact h.takeRetryGapEnd c k
  | barClockExpiry n => exact h.takeBarClockExpiry n
  | cutDue c n => exact h.takeCutDue c n
  | followCut c n => exact h.takeFollowCut c n
  | guardEnd c => exact h.takeGuardEnd c
  | slotSilent c => exact h.takeSlotSilent c
  | linkDown => exact h.takeLinkDown
  | huntLoss => exact h.takeHuntLoss
  | linkUp => exact h.takeLinkUp
  | orphanTest n => exact (h.takeOrphanTest n).takeHeard
  | peerShadow n => exact (h.takePeerShadow n).takeHeard
  | proofSuccess c k l => exact getD (fun _ => h.claimProofSuccess) h
  | proofFailure c k => exact getD (fun _ => h.claimProofFailure) h
  | demotion c k => exact getD (fun _ => h.claimDemotion) h
  | cutFailed c n => exact h.takeCutFailed c n
  | joinFailed c => exact h.takeJoinFailed c
  | noticeExpiry x => exact h.takeNoticeExpiry x
  | storeWriteStart => exact h.takeStoreWriteStart
  | reinstatementRetry => exact h.takeReinstatementRetry
  | heard n => exact h.hear n
  | passed => exact h

theorem settle (h : Orderly r s) (n : Nat) : Orderly r (settle n s) := by
  induction n generalizing s with
  | zero => exact h.same rfl
  | succ n ih =>
    unfold Machine.settle
    split
    · exact h
    · exact ih (effect (by exact h.same rfl) _)

theorem settled (h : Orderly r s) : Orderly r s.settled := h.settle _

theorem own (h : Orderly r s) (d : Due) : Orderly r (own d s) := by
  unfold Machine.own
  split
  · exact effect (by exact h.same rfl) d
  · exact h

/-! ## The rows from outside -/

theorem complete (h : Orderly r s) (d : Directive) (o : DirectiveOutcome) (x : Results) : Orderly r (s.complete d o x) :=
  h.same rfl

theorem completeChannel (h : Orderly r s) (d : Directive) (c : Channel) (o : DirectiveOutcome) :
    Orderly r (s.completeChannel d c o) := h.same rfl

theorem completeClaim (h : Orderly r s) (d : Directive) (c : Channel) {o : Option State}
    (ho : ∀ u, o = some u → Orderly r u) : Orderly r (s.completeClaim d c o) := by
  cases o with
  | none => exact h.completeChannel _ _ _
  | some u => exact (ho u rfl).completeChannel _ _ _

theorem completeView (h : Orderly r s) (d : Directive) (k : StepKind) (n : Nat) (b : Bool) :
    Orderly r (s.completeView d k n b) := by
  unfold State.completeView
  dsimp only
  split <;> exact h.same rfl

theorem runEnrol (h : Orderly r s) (d : Directive) : Orderly r (s.runEnrol d) := by
  unfold State.runEnrol
  dsimp only
  split
  · exact h.complete _ _ _
  · split
    · exact h.complete _ _ _
    · split
      · exact h.complete _ _ _
      · exact (h.enrolRange _ _ _ _).complete _ _ _

theorem runCut (h : Orderly r s) (d : Directive) : Orderly r (s.runCut d) := by
  unfold State.runCut
  split
  · exact h.complete _ _ _
  · split
    · exact h.completeClaim _ _ fun _ => h.claimCut
    · exact h.completeChannel _ _ _

theorem runRetire (h : Orderly r s) (d : Directive) : Orderly r (s.runRetire d) := by
  unfold State.runRetire
  split
  · exact h.complete _ _ _
  · split
    · split
      · exact h.completeChannel _ _ _
      next hroom => exact h.completeClaim _ _ fun _ => h.claimRetire (Bool.eq_false_iff.mpr hroom)
    · exact h.completeChannel _ _ _

theorem runRecall (h : Orderly r s) (d : Directive) : Orderly r (s.runRecall d) := by
  unfold State.runRecall
  split
  · exact h.complete _ _ _
  · split
    · exact h.completeChannel _ _ _
    next hroom => exact h.completeClaim _ _ fun _ => h.claimRecall (Bool.eq_false_iff.mpr hroom)

theorem runWithdraw (h : Orderly r s) (d : Directive) : Orderly r (s.runWithdraw d) := by
  unfold State.runWithdraw
  split
  · exact h.complete _ _ _
  · split
    · exact h.completeChannel _ _ _
    · exact h.completeClaim _ _ fun _ => h.claimWithdraw

theorem runView (h : Orderly r s) (d : Directive) (k : StepKind) : Orderly r (s.runView d k) := by
  unfold State.runView
  split
  · exact h.completeView _ _ _ _
  · exact h.complete _ _ _

theorem runSet (h : Orderly r s) (d : Directive) : Orderly r (s.runSet d) := by
  unfold State.runSet
  dsimp only
  split
  · exact h.complete _ _ _
  · exact h.same rfl

theorem runCommand (h : Orderly r s) (d : Directive) : Orderly r (s.runCommand d) := by
  unfold State.runCommand
  split
  · exact h.complete _ _ _
  · split
    · exact h.complete _ _ _
    · split
      · exact h.runEnrol d
      · exact h.runCut d
      · exact h.runRetire d
      · exact h.runRecall d
      · exact h.runWithdraw d
      · exact h.runView d _
      · exact h.runView d _
      · exact h.runSet d
      · exact h.claimAbandon.complete _ _ _

theorem runDirective (h : Orderly r s) : Orderly r s.runDirective := by
  unfold State.runDirective
  split
  · exact h
  · split
    · exact h.runCommand _
    · exact h.completeView _ _ _ _

theorem handOver (h : Orderly r s) (c : Channel) (k : CtxNo) (w : Pattern) (good : Bool) :
    Orderly r (s.handOver c k w good) := by
  have hset (x : Context) : Orderly r (s.setContext k x) := h.same rfl
  have hwatch (x : Context) : Orderly r (s.watch c k x w) := ite_due (hset _)
  unfold State.handOver
  split
  · exact h
  · split
    · split
      · exact h
      · split
        · exact hset _
        · split
          · unfold State.prove
            dsimp only
            split
            · split
              · exact (hset _).addDue _
              · exact ite_due (hset _)
            · exact hset _
          · exact hwatch _
          · exact hwatch _
          · exact hset _
    · exact h

theorem sampleWrite (h : Orderly r s) (c : Channel) (m : Master) (a : Addr) (w : BusWord) :
    Orderly r (s.sampleWrite c m a w) := by
  unfold State.sampleWrite
  split
  · dsimp only
    split
    · exact h.same rfl
    · exact handOver (by exact h.same rfl) _ _ _ _
  · exact h.same rfl
  · exact h.same rfl

theorem breakPairing (h : Orderly r s) : Orderly r s.breakPairing := by
  unfold State.breakPairing
  split
  · exact h
  · dsimp only
    split <;> exact h.same rfl

theorem routeReadFor (h : Orderly r s) (c : Channel) (m : Master) (a : Addr) (w : BusWord) :
    Orderly r (s.routeReadFor c m a w) := by
  have hbroken := h.breakPairing
  unfold State.routeReadFor
  dsimp only
  split
  · exact hbroken.same rfl
  · split <;> exact hbroken.same rfl

theorem sampleReadAt (h : Orderly r s) (m : Master) (a : Addr) (w : BusWord) : Orderly r (s.sampleReadAt m a w) := by
  unfold State.sampleReadAt
  split
  · exact h.same rfl
  · dsimp only
    split <;> exact h.same rfl

/-- A change of DU that adds no event. -/
theorem modDu (h : Orderly r s) {f : DirectiveUnit → DirectiveUnit}
    (hf : (f s.du).events.length ≤ s.du.events.length) : Orderly r (s.modDu f) :=
  h.trans ⟨id, id, id, fun hs => Nat.le_trans hf hs, id, id⟩

theorem take_events (d : DirectiveUnit) (offset : Nat) (w : BusWord) : (d.take offset w).events = d.events := by
  unfold DirectiveUnit.take DirectiveUnit.command
  split
  · split
    · split <;> rfl
    · rfl
    · rfl
  · rfl

theorem reportRead_events (d : DirectiveUnit) (n : Nat) : (d.reportRead n).events.length ≤ d.events.length := by
  unfold DirectiveUnit.reportRead
  split
  · exact Nat.le_refl _
  · unfold DirectiveUnit.readStep
    split
    · exact Nat.le_refl _
    · split
      · exact Nat.le_refl _
      · split <;> exact Nat.le_refl _
  · show d.events.tail.length ≤ _
    rw [List.length_tail]
    exact Nat.sub_le _ _
  · exact Nat.le_refl _
  · exact Nat.le_refl _

theorem pass (h : Orderly r s) (x : Access) : Orderly r (s.pass x) := by
  unfold State.pass
  split <;> exact h.same rfl

theorem access (h : Orderly r s) (x : Access) : Orderly r (s.access x) := by
  unfold State.access
  split
  · split
    · unfold State.classified
      split
      · exact h.sampleWrite _ _ _ _
      · exact h.routeReadFor _ _ _ _
      · exact h.sampleReadAt _ _ _
      · exact (h.same (t := s.carryWrite _ _ _) rfl).modDu (Nat.le_of_eq (congrArg _ (take_events _ _ _)))
      · exact (h.same (t := s.carryRead _ _ _) rfl).modDu (reportRead_events _ _)
      · exact h.pass _
    · exact h.pass _
  · exact h.pass _

theorem busRow (h : Orderly r s) (m : Master) (a : Addr) (op : BusOp) : Orderly r (s.busRow m a op) := h.settled.access _

/-! ## The retirement store -/

theorem setFlight (h : Orderly r s) (f : Option Flight) : Orderly r (s.setFlight f) := h.same rfl

theorem setFault (h : Orderly r s) (b : Bool) : Orderly r (s.setFault b) := h.same rfl

theorem drive (h : Orderly r s) (line : List LineEvent) : Orderly r (s.drive line) := h.same rfl

/-- A change of the store that keeps its canonical form. -/
theorem setStore (h : Orderly r s) {x : RetirementStore} (hx : Memory.wf s.store.cells = true → Memory.wf x.cells = true) :
    Orderly r { s with store := x } :=
  h.trans ⟨id, id, id, id, id, hx⟩

theorem attemptFailed (h : Orderly r s) (f : Flight) : Orderly r (s.attemptFailed f) := by
  unfold State.attemptFailed
  split <;> exact h.same rfl

theorem writeVerified (h : Orderly r s) (f : Flight) : Orderly r (s.writeVerified f) := by
  unfold State.writeVerified
  split
  · have hdone := (h.setFault false).setFlight none
    exact kickStore (getD (fun _ => hdone.claimStoreDone) hdone)
  · have hfailed := h.setFlight none
    exact kickStore (getD (fun _ => hfailed.claimStoreFailed) hfailed)

theorem pageWriteEnd (h : Orderly r s) : Orderly r s.pageWriteEnd := by
  unfold State.pageWriteEnd
  split
  · exact h
  next f _ =>
    exact drive (setStore (h.setFlight (some { f with stage := .poll })) (x := { s.store.commit with
      programming := some (f.request.slot, writtenRecord f.request f.purpose) }) wf_commit) _

theorem storePoll (h : Orderly r s) (x : PollAnswer) : Orderly r (s.storePoll x) := by
  unfold State.storePoll
  split
  · exact h
  · unfold State.pollStore
    split
    · exact h.drive _
    · exact ((h.setFlight _).setStore (wf_commitWith _)).drive _

theorem pollTimeout (h : Orderly r s) : Orderly r s.pollTimeout := by
  unfold State.pollTimeout
  split
  · exact h
  · exact (h.drive _).attemptFailed _

theorem storeVerify (h : Orderly r s) (x : BitVec 64) : Orderly r (s.storeVerify x) := by
  unfold State.storeVerify
  split
  · exact h
  · unfold State.verifyStore
    dsimp only
    split
    · exact (h.drive _).writeVerified _
    · exact (h.drive _).attemptFailed _

theorem writeMissingAck (h : Orderly r s) (f : Flight) (line : List LineEvent) : Orderly r (s.writeMissingAck f line) := by
  unfold State.writeMissingAck
  split
  · exact (h.drive _).attemptFailed _
  · exact (h.drive _).attemptFailed _
  · exact h.drive _
  · exact h

theorem missingAck (h : Orderly r s) (x : MissingAck) : Orderly r (s.missingAck x) := by
  unfold State.missingAck
  split
  · exact h
  · split
    · unfold State.loadMissingAck
      split
      · exact h.same rfl
      · exact h.same rfl
      · exact h
      · exact h
    · exact (h.setStore (wf_storeAt _)).writeMissingAck _ _
    · exact h

/-! ## The boundary -/

theorem countAll (h : Orderly r s) : Orderly r s.countAll := by
  let u : State := { s.tick with sn := { s.sn with
    slots := Assoc.mapValues (fun _ e => e.boundary) s.sn.slots
    schedules := stepSchedules s.sn.schedules
    outstanding := s.sn.outstanding.map Outstanding.boundary } }
  have hu : Orderly r u := h.mapSlots (fun _ e => e.boundary) rfl
  let v : State := { u with
    cp := { u.cp with contexts := Assoc.mapValues (fun _ x => u.contextStep x) u.cp.contexts }
    cl := u.cl.countLoss }
  have hlatched : Orderly r v.latchRoutes :=
    (mapChannels (s := v) (f := fun _ x => x.latchRoute) (hu.same rfl) fun _ _ hx => hx).same rfl
  have hended : Orderly r (u.guardsOver.foldl State.endGuard v.latchRoutes) := by
    refine foldl (fun hs => ?_) _ hlatched
    unfold State.endGuard
    split
    · exact hs
    · exact hs.same rfl
  show Orderly r (u.guardsOver.foldl State.endGuard v.latchRoutes).pauseStep.1
  unfold State.pauseStep
  split
  · exact hended.setFlight _
  · exact hended

theorem early (h : Orderly r s) (b : Bool) {f : State → State} (hf : ∀ {s}, Orderly r s → Orderly r (f s)) :
    Orderly r (State.early b f s) := by
  unfold State.early
  split
  · exact hf h
  · exact h

theorem beforeFrame (h : Orderly r s) (o : BoundaryOrder) : Orderly r (s.beforeFrame o) := by
  have hassigned := h.countAll.early (f := State.assignContexts) o.assignFirst fun h => h.assignUpTo _
  have hlost := hassigned.early (f := State.takeLinkDown) o.lossFirst fun h => h.takeLinkDown
  exact hlost.early (f := State.makeOutstanding) o.noticeFirst fun h => h.placeUpTo _

theorem framed (h : Orderly r s) (o : BoundaryOrder) : Orderly r (s.framed o) := by
  have hbefore := h.beforeFrame o
  unfold State.framed
  dsimp only
  split
  · exact hbefore.breakPairing.same rfl
  · exact (breakPairing (s := (s.beforeFrame o).sendFrame s.cm) (hbefore.same rfl)).same rfl

theorem runningBoundary (h : Orderly r s) (o : BoundaryOrder) : Orderly r (s.runningBoundary o) := by
  obtain ⟨d, heq⟩ := runningBoundary_eq s o
  rw [heq]
  have hcarried : Orderly r (s.framed o).carryAll := foldl (fun h => h.carryStep _) _ (h.framed o)
  exact hcarried.same rfl

theorem boundary (h : Orderly r s) (o : BoundaryOrder) : Orderly r (s.boundary o) := by
  unfold State.boundary
  split
  · exact h.reportSent.settled.runningBoundary o
  · exact h.same rfl

theorem orderedBoundary {f : State → State} (hf : ∀ {s}, Orderly r s → Orderly r (f s)) (h : Orderly r s)
    (o : BoundaryOrder) : Orderly r (s.orderedBoundary o f) := by
  unfold State.orderedBoundary
  split
  · exact hf (h.settled.boundary o)
  · let u : State := { s with due := s.due.filter fun d => decide (d ∉ s.floating) }
    exact (hf ((h.same (t := u) rfl).settled.boundary o)).same rfl

theorem relock (m : MarkState) (h : Orderly r s) : Orderly r (State.relock m s) := by
  cases m with
  | locked => exact h
  | holdover => exact raise (h.same (t := { s with ft := { s.ft with mark := .locked } }) rfl) _ _

theorem loseMark (h : Orderly r s) : Orderly r s.loseMark :=
  raise (h.same (t := { s with ft := { s.ft with mark := .holdover } }) rfl) _ _

/-! ## Reset and load -/

theorem partReset (s : State) (x : PartReset) :
    ∃ t, exec (.partReset x) s = .next t ∧ Orderly s t := by
  refine ⟨_, rfl, fun _ => ?_, fun _ => List.Pairwise.nil, fun _ => List.Pairwise.nil, fun _ => Nat.zero_le _,
    fun _ => Nat.zero_le _, fun hs => wf_throughReset _ _ (wf_storeAt _ ((refl s).settled.memory hs))⟩
  exact fun _ hp => nomatch hp

theorem judgeRecord (h : Orderly r s) (n : SlotNo) : Orderly r (s.judgeRecord n) := by
  unfold State.judgeRecord
  dsimp only
  split
  · split
    · exact h.raise _ _
    · split
      · exact h.raise _ _
      · exact (h.setChannel _ fun _ => rfl).setSlot _ _
  · exact h

theorem judgeRecords (h : Orderly r s) (first count : Nat) : Orderly r (s.judgeRecords first count) := by
  induction count generalizing s first with
  | zero => exact h
  | succ count ih => exact ih (h.judgeRecord _) _

theorem takeRecords (h : Orderly r s) (j : Nat) : Orderly r (s.takeRecords j) := by
  have hjudged := (h.drive (loadTransfer (64 + 64 * j))).judgeRecords (8 * j) 8
  unfold State.takeRecords
  generalize State.judgeRecords _ _ _ = u at hjudged ⊢
  dsimp only
  split
  · exact hjudged.same rfl
  · split
    · exact hjudged.same rfl
    · exact (hjudged.raise _ _).same rfl

theorem loaderPoll (h : Orderly r s) (b : Bool) : Orderly r (s.pollLoader b) := by
  unfold State.pollLoader
  dsimp only
  split <;> exact h.same rfl

theorem takeHeader (h : Orderly r s) : Orderly r s.takeHeader := by
  unfold State.takeHeader
  dsimp only
  split <;> exact h.same rfl

end Orderly

/-- Every command keeps the order. -/
theorem orderly_exec (i : Instr) (s : State) : ∃ t, exec i s = .next t ∧ Orderly s t := by
  have h := Orderly.refl s
  cases i with
  | partReset x => exact Orderly.partReset s x
  | resetEnd => exact ⟨_, rfl, Orderly.ite_keeps (h.same rfl) h⟩
  | fmark time o =>
    have htimed : Orderly s (s.timerAt time) := h.same rfl
    exact ⟨_, rfl, Orderly.ite_keeps h (Orderly.ite_keeps htimed (Orderly.orderedBoundary (Orderly.relock _) htimed o))⟩
  | holdoverEntry o =>
    have htimed : Orderly s (s.timerAt Config.holdoverLimit) := h.same rfl
    exact ⟨_, rfl, Orderly.ite_keeps h (Orderly.orderedBoundary Orderly.loseMark htimed o)⟩
  | holdoverBoundary o =>
    have htimed : Orderly s (s.timerAt Config.holdoverPeriod) := h.same rfl
    exact ⟨_, rfl, Orderly.ite_keeps h (Orderly.orderedBoundary (f := id) (fun h => h) htimed o)⟩
  | frameSent => exact ⟨_, rfl, h.settled.reportSent⟩
  | incomingSampleWrite a w => exact ⟨_, rfl, h.busRow _ _ _⟩
  | directiveRun => exact ⟨_, rfl, h.settled.runDirective⟩
  | frameArrival bytes => exact ⟨_, rfl, Orderly.ite_keeps (h.settled.takeArrival bytes) h.settled⟩
  | pageWriteEnd => exact ⟨_, rfl, h.settled.pageWriteEnd⟩
  | storePoll x => exact ⟨_, rfl, h.settled.storePoll x⟩
  | pollTimeout => exact ⟨_, rfl, h.settled.pollTimeout⟩
  | storeVerify x => exact ⟨_, rfl, h.settled.storeVerify x⟩
  | missingAck x => exact ⟨_, rfl, h.settled.missingAck x⟩
  | loaderPoll b => exact ⟨_, rfl, Orderly.ite_keeps (h.loaderPoll b) h⟩
  | loadPollTimeout => exact ⟨_, rfl, Orderly.ite_keeps (h.same rfl) h⟩
  | headerRead => exact ⟨_, rfl, Orderly.ite_keeps h.takeHeader h⟩
  | recordTransfer =>
    refine ⟨_, rfl, ?_⟩
    split
    · exact h.takeRecords _
    · exact h
  | routeRead | sampleRead | plainAccess | enrol | cutChannel | retireChannel | recallChannel | withdrawChannel | inspect
  | slotview | setParameter | abandon | unknownDirectiveCode | parameterLatchWrite | attentionMaskWrite
  | directiveWriteOther | rp0Read | rp6Read | rp7Read | rp8Read => exact ⟨_, rfl, h.busRow _ _ _⟩
  | contextAssign | noticeOutstanding | joinTimeout | retryGapEnd | barClockExpiry | cutDue | followCut | guardEnd
  | slotSilent | linkDown | huntLoss | linkUp | orphanTest | peerShadow | proofSuccess | proofFailure | demotion
  | cutFailed | joinFailed | noticeExpiry | storeWriteStart | reinstatementRetry => exact ⟨_, rfl, h.own _⟩

/-- Every step keeps the order. -/
theorem orderly_step {s t : State} (h : step s = .next t) : Orderly s t := by
  unfold step at h
  split at h
  · cases h
    exact .refl s
  next c rest _ =>
    obtain ⟨u, hu, horderly⟩ := orderly_exec c { s with pending := rest }
    rw [hu] at h
    cases h
    exact Orderly.trans ((Orderly.refl s).same (t := { s with pending := rest }) rfl) horderly

/-- Settles O58: the parts of `Orderly`, which every step keeps. -/
theorem everyStepKeepsTheStoreTheQueuesAndTheRoutes : Obligations.EveryStepKeepsTheStoreTheQueuesAndTheRoutes := by
  refine ⟨fun s t hmemory hevents hqueue h => ?_, fun s t hroutes hchannels hslots h => ?_⟩
  · have horderly := orderly_step h
    exact ⟨horderly.memory hmemory, horderly.events hevents, horderly.requests hqueue⟩
  · have horderly := orderly_step h
    exact ⟨horderly.routes hroutes, horderly.channels hchannels, horderly.slots hslots⟩

end Machine
end Sys2Proof
end

section
/-! SUPPORT. What the reply and the notice of a frame bring due, and which own steps a claim leaves due. -/

namespace Sys2Proof.Machine

/-! ## Claims leave the due steps alone -/

theorem due_modContextOf (s : State) (c : Channel) (f : Context → Context) : (s.modContextOf c f).due = s.due := by
  rw [State.modContextOf_eq]

theorem due_endJoin (s : State) (c : Channel) (k : EventKind) : (s.endJoin c k).due = s.due := by
  simp [State.endJoin]

theorem due_getD {o : Option State} {u : State} {l : List Due} (ho : ∀ t, o = some t → t.due = l) (hu : u.due = l) :
    (o.getD u).due = l := by
  cases o with
  | none => exact hu
  | some t => exact ho t rfl

section
variable {s t : State} {c : Channel} {n : SlotNo}

theorem due_claimSlotReserved (h : s.claimSlotReserved c n = some t) : t.due = s.due := by
  obtain ⟨_, rfl⟩ := of_guarded h
  rfl

theorem due_claimSlotReleased (h : s.claimSlotReleased c n = some t) : t.due = s.due := by
  obtain ⟨_, rfl⟩ := of_guarded h
  rfl

theorem due_claimJoinAgreed (h : s.claimJoinAgreed c n = some t) : t.due = s.due := by
  obtain ⟨_, rfl⟩ := of_guarded h
  simp [due_modContextOf]

theorem due_claimJoinFailed (h : s.claimJoinFailed c = some t) : t.due = s.due := by
  obtain ⟨_, rfl⟩ := of_guarded h
  exact due_endJoin _ _ _

theorem due_claimJoinTimeout {k : CtxNo} (h : s.claimJoinTimeout c k = some t) : t.due = s.due := by
  obtain ⟨_, rfl⟩ := of_guarded h
  exact due_endJoin _ _ _

theorem due_claimCutFailed (h : s.claimCutFailed c n = some t) : t.due = s.due := by
  obtain ⟨_, rfl⟩ := of_guarded h
  exact State.raise_due _ _ _

theorem due_claimPeerCut (h : s.claimPeerCut c n = some t) : t.due = s.due := by
  unfold State.claimPeerCut at h
  split at h
  · split at h <;> cases h <;> rfl
  · cases h

theorem due_claimLeaveResolved {b : Bool} (h : s.claimLeaveResolved c n b = some t) : t.due = s.due := by
  obtain ⟨_, rfl⟩ := of_guarded h
  cases b <;> simp

theorem due_claimGone {k : EventKind} (h : s.claimGone c n k = some t) : t.due = s.due := by
  obtain ⟨_, rfl⟩ := of_guarded h
  split <;> simp

theorem due_assignByJoin (h : s.assignByJoin c n = some t) : t.due = s.due := by
  unfold State.assignByJoin at h
  split at h
  · cases h
  · obtain ⟨_, rfl⟩ := of_guarded h
    exact State.raise_due _ _ _

end

/-! ## The reply and the notice -/

/-- An own step that a reply can bring due (R95, R96). -/
def Due.ofReply (d : Due) : Prop := (∃ c, d = .joinFailed c) ∨ ∃ c n, d = .cutFailed c n

/-- A state's due steps are those of another, and steps that a reply has brought due. -/
def State.dueByReply (s t : State) : Prop := ∀ d ∈ t.due, d ∈ s.due ∨ d.ofReply

namespace State

variable {s t : State}

theorem dueByReply_of_eq (h : t.due = s.due) : s.dueByReply t := fun _ hd => .inl (h ▸ hd)

theorem dueByReply_addDue (h : t.due = s.due) {d : Due} (hd : d.ofReply) : s.dueByReply (t.addDue d) := fun x hx =>
  (List.mem_append.mp hx).imp (fun hx => h ▸ hx) fun hx => by
    rw [List.mem_singleton.mp hx]
    exact hd

theorem dueByReply_joinSetback (h : t.due = s.due) (c : Channel) (b : Bool) : s.dueByReply (t.joinSetback c b) := by
  have hcount := (due_modContextOf t c Context.moreJoinAttempts).trans h
  unfold joinSetback
  dsimp only
  split
  · exact dueByReply_addDue hcount (.inl ⟨c, rfl⟩)
  · split
    · exact dueByReply_of_eq ((due_modContextOf _ _ _).trans hcount)
    · exact dueByReply_of_eq hcount

theorem dueByReply_cutSetback (h : t.due = s.due) (c : Channel) (n : SlotNo) : s.dueByReply (t.cutSetback c n) := by
  have hcount := (due_modContextOf t c Context.moreCutAttempts).trans h
  unfold cutSetback
  dsimp only
  split
  · exact dueByReply_addDue hcount (.inr ⟨c, n, rfl⟩)
  · exact dueByReply_of_eq hcount

theorem due_freeReserved (s : State) (c : Channel) (n : SlotNo) : (s.freeReserved c n).due = s.due :=
  due_getD (fun _ => due_claimSlotReleased) rfl

theorem due_barReserved (s : State) (c : Channel) (n : SlotNo) : (s.barReserved c n).due = s.due :=
  due_getD (fun _ => due_claimSlotReleased) rfl

theorem dueByReply_joinReply (h : t.due = s.due) (o : Outstanding) (x : Reply) : s.dueByReply (t.joinReply o x) := by
  have hfreed := (due_freeReserved t o.channel o.slot).trans h
  unfold joinReply
  split
  · exact dueByReply_of_eq (due_getD (fun _ hu => (due_claimJoinAgreed hu).trans h) h)
  · exact dueByReply_joinSetback hfreed _ _
  · exact dueByReply_joinSetback ((due_barReserved _ _ _).trans h) _ _
  · exact dueByReply_addDue hfreed (.inl ⟨o.channel, rfl⟩)

theorem dueByReply_cutReply (h : t.due = s.due) (o : Outstanding) (x : Reply) : s.dueByReply (t.cutReply o x) := by
  unfold cutReply
  split
  · exact dueByReply_of_eq h
  · split
    · exact dueByReply_of_eq h
    · exact dueByReply_cutSetback h _ _

theorem dueByReply_takeReply (s : State) (x : Option ReplyField) : s.dueByReply (s.takeReply x) := by
  unfold takeReply
  split
  · split
    · dsimp only
      split
      · exact dueByReply_joinReply rfl _ _
      · exact dueByReply_cutReply rfl _ _
      · exact dueByReply_of_eq (due_getD (fun _ => due_claimLeaveResolved) rfl)
    · exact dueByReply_of_eq rfl
  · exact dueByReply_of_eq rfl

theorem due_takeReplyClaims_subset (s : State) : ∀ d ∈ s.takeReplyClaims.due, d ∈ s.due := by
  have walk (l : List Due) (t : State) : ∀ d ∈ (l.foldl takeReplyClaim t).due, d ∈ t.due ∨ d ∈ l := by
    induction l generalizing t with
    | nil => exact fun d hd => .inl hd
    | cons x l ih =>
      have hstep : ∀ d ∈ (t.takeReplyClaim x).due, d ∈ t.due ∨ d = x := by
        unfold takeReplyClaim
        split
        · exact fun d hd => .inl (due_getD (fun _ => due_claimJoinFailed) rfl ▸ hd)
        · exact fun d hd => .inl (due_getD (fun _ => due_claimCutFailed) rfl ▸ hd)
        · exact fun d hd => (List.mem_append.mp hd).imp_right List.mem_singleton.mp
      intro d hd
      obtain hd | hd := ih _ d hd
      · exact (hstep d hd).imp_right fun e : d = x => e.symm ▸ List.mem_cons_self
      · exact .inr (List.mem_cons_of_mem _ hd)
  exact fun d hd => (walk s.due { s with due := [] } d hd).resolve_left (List.not_mem_nil)

theorem due_judgeJoin (s : State) (n : SlotNo) (l : Word) : (s.judgeJoin n l).1.due = s.due := by
  unfold judgeJoin
  dsimp only
  split
  · rfl
  · split
    · rfl
    · split
      · rfl
      · split
        · rfl
        · split
          · split
            next hu => exact due_claimJoinAgreed hu
            next => rfl
          · split
            next hu => exact due_assignByJoin hu
            next => rfl
          all_goals rfl

theorem due_agreeCut (s : State) (c : Channel) (n : SlotNo) (m : Nat) : (s.agreeCut c n m).1.due = s.due := by
  unfold agreeCut
  split
  next u hu => exact (due_claimPeerCut hu : u.due = s.due)
  next => rfl

theorem due_judgeCut (s : State) (n : SlotNo) (m : Nat) : (s.judgeCut n m).1.due = s.due := by
  unfold judgeCut
  dsimp only
  split
  · split
    · exact due_agreeCut _ _ _ _
    · split
      · split
        · rfl
        · exact due_agreeCut _ _ _ _
      · exact due_agreeCut _ _ _ _
    all_goals rfl
  · rfl

theorem due_judgeLeave (s : State) (n : SlotNo) : (s.judgeLeave n).1.due = s.due := by
  unfold judgeLeave
  split
  · rfl
  · split
    · exact due_getD (fun _ => due_claimGone) rfl
    · split
      · exact due_getD (fun _ => due_claimLeaveResolved) rfl
      · split <;> rfl

theorem due_judgeNotice (s : State) (k : NoticeKind) (f : NoticeField) : (s.judgeNotice k f).due = s.due := by
  cases k with
  | join => exact due_judgeJoin s f.slot f.label
  | cut => exact due_judgeCut s f.slot f.countdown.toNat
  | leave => exact due_judgeLeave s f.slot

theorem due_takeNotice_subset (s : State) (f : NoticeField) : ∀ d ∈ (s.takeNotice f).due, d ∈ s.due := by
  have hjudged (k : NoticeKind) : ∀ d ∈ (s.takeReplyClaims.judgeNotice k f).due, d ∈ s.due := fun d hd =>
    due_takeReplyClaims_subset s d (due_judgeNotice _ _ _ ▸ hd)
  unfold takeNotice
  split
  · exact fun d hd => hd
  · split
    · exact hjudged _
    · split
      · exact fun d hd => hd
      · exact hjudged _

/-- No heard claim waits after the reply and the notice of a frame where none waited before. -/
theorem heard_not_due_after_header (h : ∀ m, .heard m ∉ s.due) (f : ReceivedFrame) (m : SlotNo) :
    .heard m ∉ ((s.takeReply f.reply).takeNotice f.notice).due := by
  intro hd
  obtain hd | ⟨_, hd⟩ | ⟨_, _, hd⟩ := dueByReply_takeReply s f.reply _ (due_takeNotice_subset _ _ _ hd)
  · exact h m hd
  · cases hd
  · cases hd

end State

end Sys2Proof.Machine
end

section
/-! SUPPORT. The records of a frame and the walks of its report over the slots (R74, R75, R89), and the statement that they
settle. -/

namespace Sys2Proof

theorem Assoc.mem_keys_of_find {κ α : Type} [DecidableEq κ] {m : Assoc κ α} {k : κ} {v : α} (h : find m k = some v) :
    k ∈ keys m := by
  refine Classical.byContradiction fun hk => ?_
  rw [find_of_not_mem_keys hk] at h
  cases h

namespace Machine

/-! ## Walks over lists -/

/-- Induction over a list from its front to its last entry. -/
theorem snoc_induction {α : Type} {motive : List α → Prop} (nil : motive [])
    (snoc : ∀ l x, motive l → motive (l ++ [x])) (l : List α) : motive l := by
  rw [← l.reverse_reverse]
  induction l.reverse with
  | nil => exact nil
  | cons x t ih => rw [List.reverse_cons]; exact snoc _ _ ih

theorem foldl_congr_of_mem {α β : Type} {f g : β → α → β} {l : List α} (h : ∀ b, ∀ a ∈ l, f b a = g b a) (b : β) :
    l.foldl f b = l.foldl g b := by
  induction l generalizing b with
  | nil => rfl
  | cons a l ih =>
    rw [List.foldl_cons, List.foldl_cons, h b a List.mem_cons_self]
    exact ih (fun b c hc => h b c (List.mem_cons_of_mem _ hc)) _

theorem foldl_ignore {α β : Type} (l : List α) (b : β) : l.foldl (fun b _ => b) b = b := by
  induction l with
  | nil => rfl
  | cons a l ih => exact ih

/-! ## The records -/

/-- The arrival of the last record that names a slot. -/
def lastArrival (records : List ReceivedRecord) (n : SlotNo) : Option Arrival :=
  ((records.filter fun r => decide (r.fields.slot = n)).getLast?).map ReceivedRecord.arrival

theorem lastArrival_append (records : List ReceivedRecord) (r : ReceivedRecord) (n : SlotNo) :
    lastArrival (records ++ [r]) n = if r.fields.slot = n then some r.arrival else lastArrival records n := by
  unfold lastArrival
  rw [List.filter_append]
  by_cases h : r.fields.slot = n
  · rw [if_pos h, List.filter_cons_of_pos (by simpa using h), List.filter_nil, List.getLast?_concat]
    rfl
  · rw [if_neg h, List.filter_cons_of_neg (by simpa using h), List.filter_nil, List.append_nil]

theorem find_namedKinds (records : List ReceivedRecord) (n : SlotNo) :
    Assoc.find (namedKinds records) n = (lastArrival records n).map Arrival.kind := by
  induction records using snoc_induction with
  | nil => rfl
  | snoc records r ih =>
    have hlast : namedKinds (records ++ [r]) = Assoc.put (namedKinds records) r.fields.slot r.arrival.kind := by
      unfold namedKinds
      rw [List.foldl_append]
      rfl
    rw [hlast, lastArrival_append]
    by_cases h : r.fields.slot = n
    · rw [if_pos h, ← h]
      exact Assoc.find_put_same _ _ _
    · rw [if_neg h, ← ih]
      exact Assoc.find_put_other _ _ (Ne.symm h)

/-- An entry with the arrival of the last record that names its slot, if one does (R75). -/
def SlotEntry.arrived (e : SlotEntry) (a : Option Arrival) : SlotEntry :=
  { e with latch := if a = none then e.latch else a }

theorem SlotEntry.arrived_none (e : SlotEntry) : e.arrived none = e := rfl

namespace State

theorem storeRecord_rest (s : State) (r : ReceivedRecord) :
    { s.storeRecord r with sn := { (s.storeRecord r).sn with slots := s.sn.slots } } = s := by
  unfold storeRecord
  split <;> rfl

theorem storeRecords_rest (s : State) (records : List ReceivedRecord) :
    { records.foldl storeRecord s with sn := { (records.foldl storeRecord s).sn with slots := s.sn.slots } } = s := by
  induction records generalizing s with
  | nil => rfl
  | cons r records ih =>
    exact (congrArg (fun u : State => { u with sn := { u.sn with slots := s.sn.slots } }) (ih (s.storeRecord r))).trans
      (storeRecord_rest s r)

theorem slot_storeRecord (s : State) (r : ReceivedRecord) (n : SlotNo) : (s.storeRecord r).slot n =
    if (s.slot n).inUse = true ∧ r.fields.slot = n then { s.slot n with latch := some r.arrival } else s.slot n := by
  unfold storeRecord
  by_cases hn : r.fields.slot = n
  · subst hn
    by_cases hu : (s.slot r.fields.slot).inUse = true
    · rw [if_pos hu, if_pos ⟨hu, rfl⟩]
      exact slot_modSlot_same _ _ _
    · rw [if_neg hu, if_neg fun h : (s.slot r.fields.slot).inUse = true ∧ _ => hu h.1]
  · rw [if_neg (fun h : (s.slot n).inUse = true ∧ r.fields.slot = n => hn h.2)]
    split
    · exact slot_modSlot_other _ _ (Ne.symm hn)
    · rfl

/-- The records of a frame in the slots (R75): the last one that names a slot in use stands in its latch. -/
theorem slot_storeRecords (s : State) (records : List ReceivedRecord) (n : SlotNo) :
    (records.foldl storeRecord s).slot n =
      if (s.slot n).inUse = true then (s.slot n).arrived (lastArrival records n) else s.slot n := by
  induction records using snoc_induction with
  | nil => exact (ite_self _).symm
  | snoc records r ih =>
    rw [List.foldl_append]
    show ((records.foldl storeRecord s).storeRecord r).slot n = _
    rw [slot_storeRecord, ih, lastArrival_append]
    by_cases hu : (s.slot n).inUse = true
    · have hkept : ((s.slot n).arrived (lastArrival records n)).inUse = true := hu
      rw [if_pos hu, if_pos hu]
      by_cases hr : r.fields.slot = n
      · rw [if_pos ⟨hkept, hr⟩, if_pos hr]
        rfl
      · rw [if_neg fun h => hr h.2, if_neg hr]
    · rw [if_neg hu, if_neg hu, if_neg fun h => hu h.1]

/-! ## The walks -/

theorem mem_keys_of_inUse {s : State} {n : SlotNo} (h : (s.slot n).inUse = true) : n ∈ Assoc.keys s.sn.slots := by
  refine Classical.byContradiction fun hn => ?_
  unfold slot at h
  rw [Assoc.find_of_not_mem_keys hn] at h
  cases h

theorem onSlot_of_some {named : Assoc SlotNo ArrivalKind} {test : State → SlotNo → Channel → Option ArrivalKind → State}
    {s : State} {n : SlotNo} {c : Channel} (hu : (s.slot n).inUse = true) (hc : (s.slot n).channel = some c) :
    onSlot named test s n = test s n c (Assoc.find named n) := by
  unfold onSlot
  dsimp only
  rw [hu, hc]

theorem onSlot_of_not {named : Assoc SlotNo ArrivalKind} {test : State → SlotNo → Channel → Option ArrivalKind → State}
    {s : State} {n : SlotNo} (h : ¬ ((s.slot n).inUse = true ∧ ∃ c, (s.slot n).channel = some c)) :
    onSlot named test s n = s := by
  unfold onSlot
  dsimp only
  split
  next c hu hc => exact absurd ⟨hu, c, hc⟩ h
  next => rfl

/-- A step of a walk that changes the entry of its slot alone, by a function of the entry, and the events: those that the
entry raises. -/
structure SlotStep (g : State → SlotNo → State) (s : State) (f : SlotNo → SlotEntry → SlotEntry)
    (events : SlotNo → SlotEntry → DirectiveUnit → DirectiveUnit) : Prop where
  same : ∀ u n, { u with sn := { u.sn with slots := s.sn.slots }, du := s.du } = s → (g u n).slot n = f n (u.slot n)
  other : ∀ u n m, m ≠ n → (g u n).slot m = u.slot m
  raised : ∀ u n, { u with sn := { u.sn with slots := s.sn.slots }, du := s.du } = s →
    (g u n).du = events n (u.slot n) u.du
  rest : ∀ u n, { g u n with sn := { (g u n).sn with slots := u.sn.slots }, du := u.du } = u

section
variable {g : State → SlotNo → State} {s : State} {f : SlotNo → SlotEntry → SlotEntry}
  {events : SlotNo → SlotEntry → DirectiveUnit → DirectiveUnit}

theorem SlotStep.foldl_rest (h : SlotStep g s f events) (l : List SlotNo) (u : State) :
    { l.foldl g u with sn := { (l.foldl g u).sn with slots := u.sn.slots }, du := u.du } = u := by
  induction l generalizing u with
  | nil => rfl
  | cons n l ih =>
    exact (congrArg (fun v : State => { v with sn := { v.sn with slots := u.sn.slots }, du := u.du }) (ih (g u n))).trans
      (h.rest u n)

/-- A walk over distinct slots takes each by its own entry. -/
theorem SlotStep.foldl_eq (h : SlotStep g s f events) {l : List SlotNo} (hl : l.Nodup) {u : State}
    (hu : { u with sn := { u.sn with slots := s.sn.slots }, du := s.du } = s) :
    (∀ m, (l.foldl g u).slot m = if m ∈ l then f m (u.slot m) else u.slot m) ∧
    (l.foldl g u).du = l.foldl (fun d n => events n (u.slot n) d) u.du := by
  induction l generalizing u with
  | nil => exact ⟨fun _ => (if_neg List.not_mem_nil).symm, rfl⟩
  | cons n l ih =>
    obtain ⟨hn, hl⟩ := List.nodup_cons.mp hl
    have hnext : { g u n with sn := { (g u n).sn with slots := s.sn.slots }, du := s.du } = s :=
      (congrArg (fun v : State => { v with sn := { v.sn with slots := s.sn.slots }, du := s.du }) (h.rest u n)).trans hu
    obtain ⟨hslots, hevents⟩ := ih hl hnext
    refine ⟨fun m => ?_, ?_⟩
    · rw [List.foldl_cons, hslots]
      by_cases hm : m = n
      · rw [hm, if_neg hn, if_pos List.mem_cons_self, h.same u n hu]
      · rw [h.other u n m hm]
        by_cases hml : m ∈ l
        · rw [if_pos hml, if_pos (List.mem_cons_of_mem _ hml)]
        · rw [if_neg hml, if_neg fun hmem => (List.mem_cons.mp hmem).elim hm hml]
    · rw [List.foldl_cons, hevents, List.foldl_cons, h.raised u n hu]
      exact foldl_congr_of_mem (fun d m hm => by rw [h.other u n m fun e => hn (e ▸ hm)]) _

end

/-- A walk that only brings steps due, by conditions that it leaves alone. -/
theorem foldl_addDue {g : State → SlotNo → State} {s : State} {q : SlotNo → Bool} {due : SlotNo → Due}
    (hg : ∀ (u : State) n, { u with due := s.due } = s → g u n = if q n = true then u.addDue (due n) else u)
    (l : List SlotNo) : l.foldl g s = { s with due := s.due ++ (l.filter q).map due } := by
  have walk (l : List SlotNo) (u : State) (hu : { u with due := s.due } = s) :
      l.foldl g u = { u with due := u.due ++ (l.filter q).map due } := by
    induction l generalizing u with
    | nil => rw [List.filter_nil, List.map_nil, List.append_nil]; rfl
    | cons n l ih =>
      rw [List.foldl_cons, hg u n hu, List.filter_cons]
      by_cases hq : q n = true
      · rw [if_pos hq, if_pos hq]
        refine (ih (u.addDue (due n)) hu).trans ?_
        show { u with due := (u.due ++ [due n]) ++ _ } = _
        rw [List.append_assoc]
        rfl
      · rw [if_neg hq, if_neg hq]
        exact ih u hu
  exact walk l s rfl

/-- A test of a slot in use with its channel. -/
def slotTest (s : State) (p : SlotNo → Channel → Bool) (n : SlotNo) : Bool :=
  match (s.slot n).inUse, (s.slot n).channel with
  | true, some c => p n c
  | _, _ => false

theorem slotTest_iff {s : State} {p : SlotNo → Channel → Bool} {n : SlotNo} : s.slotTest p n = true ↔
    (s.slot n).inUse = true ∧ ∃ c, (s.slot n).channel = some c ∧ p n c = true := by
  unfold slotTest
  cases (s.slot n).inUse <;> cases (s.slot n).channel <;> simp

/-- The slots that a test of a walk meets. -/
def slotsWhere (s : State) (p : SlotNo → Channel → Bool) : List SlotNo := (Assoc.keys s.sn.slots).filter (s.slotTest p)

theorem mem_slotsWhere {s : State} {p : SlotNo → Channel → Bool} {n : SlotNo} : n ∈ s.slotsWhere p ↔
    (s.slot n).inUse = true ∧ ∃ c, (s.slot n).channel = some c ∧ p n c = true := by
  unfold slotsWhere
  rw [List.mem_filter, slotTest_iff]
  exact ⟨And.right, fun h => ⟨mem_keys_of_inUse h.1, h⟩⟩

theorem slotsWhere_pairwise {s : State} (h : s.slotsInOrder) (p : SlotNo → Channel → Bool) :
    (s.slotsWhere p).Pairwise (· < ·) := List.Pairwise.filter _ h

/-- A walk that only brings steps due. -/
theorem eachSlot_addDue {named : Assoc SlotNo ArrivalKind} {test : State → SlotNo → Channel → Option ArrivalKind → State}
    {s : State} {p : SlotNo → Channel → Bool} {due : SlotNo → Due}
    (htest : ∀ (u : State) n c, { u with due := s.due } = s →
      test u n c (Assoc.find named n) = if p n c = true then u.addDue (due n) else u) :
    s.eachSlot named test = { s with due := s.due ++ (s.slotsWhere p).map due } := by
  refine foldl_addDue (fun u n hu => ?_) _
  have hslot : u.slot n = s.slot n := by
    show slot { u with due := s.due } n = _
    rw [hu]
  by_cases h : (s.slot n).inUse = true ∧ ∃ c, (s.slot n).channel = some c
  · obtain ⟨hin, c, hc⟩ := h
    have htested : s.slotTest p n = p n c := by
      unfold slotTest
      rw [hin, hc]
    rw [onSlot_of_some (hslot ▸ hin) (hslot ▸ hc), htest u n c hu, htested]
  · rw [onSlot_of_not (hslot ▸ h), if_neg fun htested => h ?_]
    obtain ⟨hin, c, hc, -⟩ := slotTest_iff.mp htested
    exact ⟨hin, c, hc⟩

/-- Outside the listed slots an entry in use is not met, so a walk by entries reaches every slot that it changes. -/
theorem walk_slots {g : State → SlotNo → State} {s : State} {f : SlotNo → SlotEntry → SlotEntry}
    {events : SlotNo → SlotEntry → DirectiveUnit → DirectiveUnit} (h : SlotStep g s f events) (horder : s.slotsInOrder)
    (hidle : ∀ n e, e.inUse = false → f n e = e) (m : SlotNo) :
    ((Assoc.keys s.sn.slots).foldl g s).slot m = f m (s.slot m) := by
  rw [(h.foldl_eq (horder.imp fun h => Fin.ne_of_lt h) rfl).1]
  split
  next => rfl
  next hm => exact (hidle m _ (Bool.eq_false_iff.mpr fun hu => hm (mem_keys_of_inUse hu))).symm

end State

/-- An entry in use changed by its channel; any other stays. -/
def SlotEntry.inUseBy (e : SlotEntry) (f : Channel → SlotEntry) : SlotEntry :=
  match e.inUse, e.channel with
  | true, some c => f c
  | _, _ => e

theorem SlotEntry.inUseBy_some {e : SlotEntry} {c : Channel} (hu : e.inUse = true) (hc : e.channel = some c)
    (f : Channel → SlotEntry) : e.inUseBy f = f c := by
  unfold inUseBy
  rw [hu, hc]

theorem SlotEntry.inUseBy_not {e : SlotEntry} (h : ¬ (e.inUse = true ∧ ∃ c, e.channel = some c))
    (f : Channel → SlotEntry) : e.inUseBy f = e := by
  unfold inUseBy
  split
  next c hu hc => exact absurd ⟨hu, c, hc⟩ h
  next => rfl

/-- PEER_AHEAD becomes marked (R104). -/
def SlotEntry.getsAhead (e : SlotEntry) (p : Phase) (k : Option ArrivalKind) : Bool :=
  decide (e.state = .held ∧ (p = .shadow ∨ p = .fallen) ∧ k = some .live ∧ e.peerAhead = false)

/-- An entry after the follow test and the peer-ahead test (R104). -/
def SlotEntry.aheadTested (e : SlotEntry) (p : Phase) (k : Option ArrivalKind) : SlotEntry :=
  { e with
    peerAhead := e.peerAhead || e.getsAhead p k
    followDue := e.followDue ||
      decide (e.state = .held ∧ (p = .proven ∨ p = .cutting) ∧ k = some .live ∧ Config.runLimit ≤ e.liveRun) }

theorem SlotEntry.stepReport_state (e : SlotEntry) (p : Phase) (k : Option ArrivalKind) :
    (e.stepReport p k).state = e.state ∧ (e.stepReport p k).channel = e.channel := by
  unfold stepReport
  dsimp only
  split <;> exact ⟨rfl, rfl⟩

namespace State

variable {s : State} {named : Assoc SlotNo ArrivalKind}

/-- The step of a report on the entry of a slot (R89). -/
def stepped (s : State) (named : Assoc SlotNo ArrivalKind) (n : SlotNo) (e : SlotEntry) : SlotEntry :=
  e.inUseBy fun c => e.stepReport (s.channel c).phase (Assoc.find named n)

/-- The follow test and the peer-ahead test of a report on the entry of a slot (R104). -/
def aheaded (s : State) (named : Assoc SlotNo ArrivalKind) (n : SlotNo) (e : SlotEntry) : SlotEntry :=
  e.inUseBy fun c => e.aheadTested (s.channel c).phase (Assoc.find named n)

/-- The events of the peer-ahead test on a slot (R104). -/
def aheadEvents (s : State) (named : Assoc SlotNo ArrivalKind) (n : SlotNo) (e : SlotEntry) (d : DirectiveUnit) :
    DirectiveUnit :=
  match e.inUse, e.channel with
  | true, some c =>
    if e.getsAhead (s.channel c).phase (Assoc.find named n) = true then d.raised .peerAhead c else d
  | _, _ => d

theorem slotStep_stepTest (s : State) (named : Assoc SlotNo ArrivalKind) :
    SlotStep (onSlot named stepTest) s (s.stepped named) fun _ _ d => d := by
  have hstep (u : State) (n : SlotNo) : (∃ c, (u.slot n).inUse = true ∧ (u.slot n).channel = some c ∧
      onSlot named stepTest u n = u.modSlot n fun e => e.stepReport (u.channel c).phase (Assoc.find named n)) ∨
      ¬ ((u.slot n).inUse = true ∧ ∃ c, (u.slot n).channel = some c) ∧ onSlot named stepTest u n = u := by
    by_cases h : (u.slot n).inUse = true ∧ ∃ c, (u.slot n).channel = some c
    · obtain ⟨hu, c, hc⟩ := h
      exact .inl ⟨c, hu, hc, onSlot_of_some hu hc⟩
    · exact .inr ⟨h, onSlot_of_not h⟩
  refine ⟨fun u n hu => ?_, fun u n m hm => ?_, fun u n _ => ?_, fun u n => ?_⟩
  · have hcm := congrArg State.cm hu
    change u.cm = s.cm at hcm
    unfold stepped
    obtain ⟨c, hin, hc, heq⟩ | ⟨hnot, heq⟩ := hstep u n
    · rw [heq, slot_modSlot_same, SlotEntry.inUseBy_some hin hc]
      unfold channel
      rw [hcm]
    · rw [heq, SlotEntry.inUseBy_not hnot]
  · obtain ⟨c, -, -, heq⟩ | ⟨-, heq⟩ := hstep u n
    · rw [heq, slot_modSlot_other _ _ hm]
    · rw [heq]
  · obtain ⟨c, -, -, heq⟩ | ⟨-, heq⟩ := hstep u n <;> rw [heq] <;> rfl
  · obtain ⟨c, -, -, heq⟩ | ⟨-, heq⟩ := hstep u n <;> rw [heq] <;> rfl

theorem proving_not_uncut {p : Phase} (h : p = .proven ∨ p = .cutting) : ¬ (p = .shadow ∨ p = .fallen) := by
  obtain rfl | rfl := h <;> decide

/-- The two tests of R104 speak of different phases: a slot meets one of them at most. -/
theorem aheadTest_eq (u : State) (n : SlotNo) (c : Channel) (k : Option ArrivalKind) :
    u.aheadTest n c k =
      if (u.slot n).state = .held ∧ ((u.channel c).phase = .proven ∨ (u.channel c).phase = .cutting) ∧ k = some .live ∧
          Config.runLimit ≤ (u.slot n).liveRun then u.modSlot n fun e => { e with followDue := true }
      else if (u.slot n).getsAhead (u.channel c).phase k = true then
        (u.modSlot n fun e => { e with peerAhead := true }).raise .peerAhead c
      else u := by
  unfold aheadTest followTest
  dsimp only
  split
  next h =>
    obtain ⟨-, hphase, -⟩ := h
    refine if_neg fun h' => ?_
    obtain ⟨-, h', -⟩ := h'
    exact proving_not_uncut hphase h'
  next =>
    unfold SlotEntry.getsAhead
    simp only [decide_eq_true_eq]
    rfl

theorem aheadTest_spec (u : State) (n : SlotNo) (c : Channel) (k : Option ArrivalKind) :
    (u.aheadTest n c k).slot n = (u.slot n).aheadTested (u.channel c).phase k ∧
    (∀ m, m ≠ n → (u.aheadTest n c k).slot m = u.slot m) ∧
    (u.aheadTest n c k).du = (if (u.slot n).getsAhead (u.channel c).phase k = true then u.du.raised .peerAhead c else u.du) ∧
    { u.aheadTest n c k with sn := { (u.aheadTest n c k).sn with slots := u.sn.slots }, du := u.du } = u := by
  rw [aheadTest_eq]
  unfold SlotEntry.aheadTested
  by_cases hfollow : (u.slot n).state = .held ∧ ((u.channel c).phase = .proven ∨ (u.channel c).phase = .cutting) ∧
      k = some .live ∧ Config.runLimit ≤ (u.slot n).liveRun
  · have hahead : (u.slot n).getsAhead (u.channel c).phase k = false := by
      obtain ⟨-, hphase, -⟩ := hfollow
      refine decide_eq_false fun h' => ?_
      obtain ⟨-, h', -⟩ := h'
      exact proving_not_uncut hphase h'
    rw [if_pos hfollow, hahead, decide_eq_true hfollow, Bool.or_false, Bool.or_true, if_neg Bool.false_ne_true]
    exact ⟨slot_modSlot_same _ _ _, fun m hm => slot_modSlot_other _ _ hm, rfl, rfl⟩
  · rw [if_neg hfollow, decide_eq_false hfollow, Bool.or_false]
    by_cases hahead : (u.slot n).getsAhead (u.channel c).phase k = true
    · rw [if_pos hahead, if_pos hahead, hahead, Bool.or_true]
      exact ⟨(slot_raise _ _ _ _).trans (slot_modSlot_same _ _ _), fun m hm => (slot_raise _ _ _ _).trans
        (slot_modSlot_other _ _ hm), raise_du_raised _ _ _, by rw [raise_eq]; rfl⟩
    · rw [if_neg hahead, if_neg hahead, Bool.eq_false_iff.mpr hahead, Bool.or_false]
      exact ⟨rfl, fun _ _ => rfl, rfl, rfl⟩

theorem slotStep_aheadTest (s : State) (named : Assoc SlotNo ArrivalKind) :
    SlotStep (onSlot named aheadTest) s (s.aheaded named) (s.aheadEvents named) := by
  have hphase {u : State} (hu : { u with sn := { u.sn with slots := s.sn.slots }, du := s.du } = s) (c : Channel) :
      u.channel c = s.channel c := by
    have hcm := congrArg State.cm hu
    change u.cm = s.cm at hcm
    unfold channel
    rw [hcm]
  refine ⟨fun u n hu => ?_, fun u n m hm => ?_, fun u n hu => ?_, fun u n => ?_⟩ <;>
    by_cases h : (u.slot n).inUse = true ∧ ∃ c, (u.slot n).channel = some c
  · obtain ⟨hin, c, hc⟩ := h
    unfold aheaded
    rw [onSlot_of_some hin hc, (aheadTest_spec u n c _).1, SlotEntry.inUseBy_some hin hc, hphase hu]
  · unfold aheaded
    rw [onSlot_of_not h, SlotEntry.inUseBy_not h]
  · obtain ⟨hin, c, hc⟩ := h
    rw [onSlot_of_some hin hc]
    exact (aheadTest_spec u n c _).2.1 m hm
  · rw [onSlot_of_not h]
  · obtain ⟨hin, c, hc⟩ := h
    rw [onSlot_of_some hin hc, (aheadTest_spec u n c _).2.2.1, hphase hu]
    unfold aheadEvents
    rw [hin, hc]
  · rw [onSlot_of_not h]
    unfold aheadEvents
    split
    next c hin hc => exact absurd ⟨hin, c, hc⟩ h
    next => rfl
  · obtain ⟨hin, c, hc⟩ := h
    rw [onSlot_of_some hin hc]
    exact (aheadTest_spec u n c _).2.2.2
  · rw [onSlot_of_not h]

/-! ## The report -/

/-- The state of a report once the slots have stepped and the tests of R104 have been made. -/
def counted (s : State) (named : Assoc SlotNo ArrivalKind) : State :=
  (s.eachSlot named stepTest).eachSlot named aheadTest

theorem counted_rest (s : State) (named : Assoc SlotNo ArrivalKind) :
    { s.counted named with sn := { (s.counted named).sn with slots := s.sn.slots }, du := s.du } = s := by
  have hstep := (slotStep_stepTest s named).foldl_rest (Assoc.keys s.sn.slots) s
  have hahead := (slotStep_aheadTest (s.eachSlot named stepTest) named).foldl_rest
    (Assoc.keys (s.eachSlot named stepTest).sn.slots) (s.eachSlot named stepTest)
  exact (congrArg (fun v : State => { v with sn := { v.sn with slots := s.sn.slots }, du := s.du }) hahead).trans hstep

theorem stepped_order (h : s.slotsInOrder) (named : Assoc SlotNo ArrivalKind) :
    (s.eachSlot named stepTest).slotsInOrder :=
  (Orderly.eachSlot (test := stepTest) (fun h => h.modSlot _ _) (.refl s) named).slots h

theorem counted_order (h : s.slotsInOrder) (named : Assoc SlotNo ArrivalKind) : (s.counted named).slotsInOrder :=
  (Orderly.eachSlot (test := aheadTest) (fun h => h.aheadTest _ _ _) (.refl _) named).slots (stepped_order h named)

theorem slot_stepTests (h : s.slotsInOrder) (n : SlotNo) :
    (s.eachSlot named stepTest).slot n = s.stepped named n (s.slot n) :=
  walk_slots (slotStep_stepTest s named) h (fun _ _ he => SlotEntry.inUseBy_not (fun h => by rw [he] at h; cases h.1) _) n

theorem stepTests_channel (s : State) (named : Assoc SlotNo ArrivalKind) (c : Channel) :
    (s.eachSlot named stepTest).channel c = s.channel c := by
  have hstep := congrArg (fun v : State => v.channel c)
    ((slotStep_stepTest s named).foldl_rest (Assoc.keys s.sn.slots) s)
  exact hstep

/-- The entry of a slot in use after the step of a report and the tests of R104. -/
theorem slot_counted (h : s.slotsInOrder) {n : SlotNo} {c : Channel} (hu : (s.slot n).inUse = true)
    (hc : (s.slot n).channel = some c) : (s.counted named).slot n =
      ((s.slot n).stepReport (s.channel c).phase (Assoc.find named n)).aheadTested (s.channel c).phase
        (Assoc.find named n) := by
  have hahead := walk_slots (slotStep_aheadTest (s.eachSlot named stepTest) named) (stepped_order h named)
    (fun _ _ he => SlotEntry.inUseBy_not (fun h => by rw [he] at h; cases h.1) _) n
  have hentry : (s.eachSlot named stepTest).slot n =
      (s.slot n).stepReport (s.channel c).phase (Assoc.find named n) :=
    (slot_stepTests h n).trans (SlotEntry.inUseBy_some hu hc _)
  obtain ⟨hstate, hchannel⟩ := (s.slot n).stepReport_state (s.channel c).phase (Assoc.find named n)
  refine hahead.trans ?_
  rw [hentry]
  unfold aheaded
  rw [SlotEntry.inUseBy_some (c := c) (by unfold SlotEntry.inUse at hu ⊢; rw [hstate]; exact hu) (hchannel.trans hc),
    stepTests_channel]

theorem slot_counted_idle (h : s.slotsInOrder) {n : SlotNo}
    (hidle : ¬ ((s.slot n).inUse = true ∧ ∃ c, (s.slot n).channel = some c)) :
    (s.counted named).slot n = s.slot n := by
  have hahead := walk_slots (slotStep_aheadTest (s.eachSlot named stepTest) named) (stepped_order h named)
    (fun _ _ he => SlotEntry.inUseBy_not (fun h => by rw [he] at h; cases h.1) _) n
  have hentry : (s.eachSlot named stepTest).slot n = s.slot n :=
    (slot_stepTests h n).trans (SlotEntry.inUseBy_not hidle _)
  refine hahead.trans ?_
  rw [hentry]
  exact SlotEntry.inUseBy_not hidle _

/-- The slots that a report newly marks PEER_AHEAD (R104). -/
def aheadSlots (s : State) (named : Assoc SlotNo ArrivalKind) : List SlotNo :=
  let t := s.eachSlot named stepTest
  t.slotsWhere fun n c => (t.slot n).getsAhead (t.channel c).phase (Assoc.find named n)

theorem counted_du (h : s.slotsInOrder) (named : Assoc SlotNo ArrivalKind) : (s.counted named).du =
    (s.aheadSlots named).foldl (fun d n => d.raised .peerAhead ((s.slot n).channel.getD 0)) s.du := by
  let t := s.eachSlot named stepTest
  have hdu : t.du = s.du := ((slotStep_stepTest s named).foldl_eq (h.imp fun h => Fin.ne_of_lt h) rfl).2.trans
    (foldl_ignore _ _)
  have hevents := ((slotStep_aheadTest t named).foldl_eq ((stepped_order h named).imp fun h => Fin.ne_of_lt h) rfl).2
  change _ = (Assoc.keys t.sn.slots).foldl (fun d n => t.aheadEvents named n (t.slot n) d) t.du at hevents
  refine hevents.trans ?_
  rw [hdu]
  unfold aheadSlots slotsWhere
  rw [List.foldl_filter]
  refine foldl_congr_of_mem (fun d n _ => ?_) _
  have hchannel : (t.slot n).channel = (s.slot n).channel := by
    rw [slot_stepTests h]
    unfold stepped SlotEntry.inUseBy
    split
    · exact (SlotEntry.stepReport_state _ _ _).2
    · rfl
  rw [← hchannel]
  unfold aheadEvents slotTest
  cases (t.slot n).inUse <;> cases (t.slot n).channel <;> rfl

theorem mem_aheadSlots (h : s.slotsInOrder) {n : SlotNo} : n ∈ s.aheadSlots named ↔
    (s.slot n).state = .held ∧ (∃ c, (s.slot n).channel = some c ∧
      ((s.channel c).phase = .shadow ∨ (s.channel c).phase = .fallen)) ∧
    Assoc.find named n = some .live ∧ (s.slot n).peerAhead = false := by
  unfold aheadSlots
  dsimp only
  rw [mem_slotsWhere, slot_stepTests h]
  simp only [stepTests_channel]
  unfold stepped SlotEntry.getsAhead
  by_cases hin : (s.slot n).inUse = true ∧ ∃ c, (s.slot n).channel = some c
  · obtain ⟨hu, c, hc⟩ := hin
    obtain ⟨hstate, hchannel⟩ := (s.slot n).stepReport_state (s.channel c).phase (Assoc.find named n)
    have hsame : ((s.slot n).stepReport (s.channel c).phase (Assoc.find named n)).inUse = true := by
      unfold SlotEntry.inUse at hu ⊢
      rw [hstate]
      exact hu
    have hmark : Assoc.find named n = some .live →
        ((s.slot n).stepReport (s.channel c).phase (Assoc.find named n)).peerAhead = (s.slot n).peerAhead := by
      intro hlive
      rw [hlive]
      rfl
    rw [SlotEntry.inUseBy_some hu hc, hchannel, hc, hstate]
    simp only [hsame, true_and, Option.some.injEq, exists_eq_left', decide_eq_true_eq]
    constructor
    · rintro ⟨hheld, hphase, hlive, hahead⟩
      exact ⟨hheld, hphase, hlive, hmark hlive ▸ hahead⟩
    · rintro ⟨hheld, hphase, hlive, hahead⟩
      exact ⟨hheld, hphase, hlive, (hmark hlive).trans hahead⟩
  · rw [SlotEntry.inUseBy_not hin]
    refine ⟨fun ⟨hu, c, hc, _⟩ => absurd ⟨hu, c, hc⟩ hin, fun ⟨hheld, ⟨c, hc, _⟩, _⟩ => absurd ⟨?_, c, hc⟩ hin⟩
    unfold SlotEntry.inUse
    rw [hheld]

/-- The slots that a report brings PEER_SHADOW due for (R105). -/
def shadowSlots (s : State) (named : Assoc SlotNo ArrivalKind) : List SlotNo :=
  s.slotsWhere fun n c => decide (Assoc.find named n = some .shadow) && s.peerShadowHolds n (s.channel c).phase

/-- The slots that a report brings ORPHAN_TEST due for (R106). -/
def silentSlots (s : State) (named : Assoc SlotNo ArrivalKind) : List SlotNo :=
  s.slotsWhere fun n _ => decide ((s.slot n).state = .held ∧ Assoc.find named n = none ∧
    s.sc.params.orphanFrames ≤ (s.slot n).orphanCount)

/-- The slots whose STRANDED channels a report hears (R89). -/
def heardSlots (s : State) (named : Assoc SlotNo ArrivalKind) : List SlotNo :=
  s.slotsWhere fun n c => decide ((Assoc.find named n = some .live ∨ Assoc.find named n = some .shadow) ∧
    (s.channel c).phase = .stranded)

/-- The due steps of a report, but for the heard claims. -/
def reportDue (s : State) (named : Assoc SlotNo ArrivalKind) : List Due :=
  s.due ++ (s.shadowSlots named).map Due.peerShadow ++ (s.silentSlots named).map Due.orphanTest

/-- A report, test by test (R89). -/
theorem report_eq (s : State) (named : Assoc SlotNo ArrivalKind) : s.report named =
    takeHeard { s.counted named with
      due := (s.counted named).reportDue named ++ ((s.counted named).heardSlots named).map Due.heard } := by
  let t := s.counted named
  have hshadow : t.eachSlot named shadowTest = { t with due := t.due ++ (t.shadowSlots named).map Due.peerShadow } := by
    refine eachSlot_addDue fun u n c hu => ?_
    have hu' : u.peerShadowHolds n (u.channel c).phase = t.peerShadowHolds n (t.channel c).phase := by
      show State.peerShadowHolds { u with due := t.due } n (State.channel { u with due := t.due } c).phase = _
      rw [hu]
    unfold shadowTest
    simp only [hu', Bool.and_eq_true, decide_eq_true_eq]
  let t' : State := { t with due := t.due ++ (t.shadowSlots named).map Due.peerShadow }
  have hsilence : t'.eachSlot named silenceTest = { t' with due := t'.due ++ (t.silentSlots named).map Due.orphanTest } := by
    refine eachSlot_addDue (p := fun n _ => decide ((t.slot n).state = .held ∧ Assoc.find named n = none ∧
      t.sc.params.orphanFrames ≤ (t.slot n).orphanCount)) fun u n c hu => ?_
    have hslot : u.slot n = t.slot n := by
      show State.slot { u with due := t'.due } n = t'.slot n
      rw [hu]
    have hparams : u.sc.params = t.sc.params := by
      show (State.sc { u with due := t'.due }).params = t'.sc.params
      rw [hu]
    unfold silenceTest
    dsimp only
    rw [hslot, hparams]
    simp only [decide_eq_true_eq]
  let t'' : State := { t' with due := t'.due ++ (t.silentSlots named).map Due.orphanTest }
  have hheard : t''.eachSlot named heardTest = { t'' with due := t''.due ++ (t.heardSlots named).map Due.heard } := by
    refine eachSlot_addDue (p := fun n c => decide ((Assoc.find named n = some .live ∨ Assoc.find named n = some .shadow) ∧
      (t.channel c).phase = .stranded)) fun u n c hu => ?_
    have hchannel : u.channel c = t.channel c := by
      show State.channel { u with due := t''.due } c = t''.channel c
      rw [hu]
    unfold heardTest
    rw [hchannel]
    simp only [decide_eq_true_eq]
  show ((((t.eachSlot named shadowTest).eachSlot named silenceTest).eachSlot named heardTest).takeHeard) = _
  rw [hshadow]
  show (((t'.eachSlot named silenceTest).eachSlot named heardTest).takeHeard) = _
  rw [hsilence]
  show ((t''.eachSlot named heardTest).takeHeard) = _
  rw [hheard]
  rfl

/-! ## The heard claims -/

/-- The channel that a heard claim for a slot returns to RETIRED (R39). -/
def hears (s : State) (n : SlotNo) (c : Channel) : Prop :=
  (s.slot n).channel = some c ∧ (s.channel c).phase = .stranded ∧ (s.channel c).slot = some n

/-- A heard claim for a slot, with its event (R39). -/
def heardEvent (s : State) (n : SlotNo) : Bool :=
  match (s.slot n).channel with
  | none => false
  | some c => decide ((s.channel c).phase = .stranded ∧ (s.channel c).slot = some n ∧ (s.channel c).cause = some .silence)

theorem heardEvent_iff {n : SlotNo} : s.heardEvent n = true ↔
    ∃ c, s.hears n c ∧ (s.channel c).cause = some .silence := by
  unfold heardEvent hears
  cases hc : (s.slot n).channel with
  | none => simp
  | some c => simp [and_assoc]

theorem hear_of_hears {n : SlotNo} {c : Channel} (h : s.hears n c) : (s.hear n).channel c =
      { (s.channel c).moved .retired .fibre .idle .live with cause := none } ∧
    keepsOtherChannels c s (s.hear n) := by
  rw [hear_eq h.1 h.2]
  exact ⟨channel_put rfl, keepsOtherChannels_put rfl⟩

theorem slot_hear (n m : SlotNo) : (s.hear n).slot m = s.slot m := by
  unfold slot
  rw [hear_sn]

/-- A heard claim for a slot leaves a channel alone that one for another slot would hear. -/
theorem hear_keeps_heard {m n : SlotNo} {d : Channel} (hm : m ≠ n) (h : (s.channel d).slot = some m ∨
    ((s.hear n).channel d).slot = some m) : (s.hear n).channel d = s.channel d := by
  by_cases hn : ∃ c, s.hears n c
  · obtain ⟨c, hc⟩ := hn
    obtain ⟨hsame, hother⟩ := hear_of_hears hc
    by_cases hd : d = c
    · subst hd
      rw [hsame] at h
      have h : (s.channel d).slot = some m := h.elim id id
      exact absurd (Option.some.inj (h.symm.trans hc.2.2)) hm
    · exact hother d hd
  · rw [hear_stale fun c hc h => hn ⟨c, hc, h⟩]

theorem hears_hear {m n : SlotNo} {d : Channel} (hm : m ≠ n) : (s.hear n).hears m d ↔ s.hears m d := by
  unfold hears
  rw [slot_hear]
  refine and_congr_right fun _ => ⟨fun ⟨hphase, hslot⟩ => ?_, fun ⟨hphase, hslot⟩ => ?_⟩
  · rw [hear_keeps_heard hm (.inr hslot)] at hphase hslot
    exact ⟨hphase, hslot⟩
  · rw [hear_keeps_heard hm (.inl hslot)]
    exact ⟨hphase, hslot⟩

theorem heardEvent_hear {m n : SlotNo} (hm : m ≠ n) : (s.hear n).heardEvent m = s.heardEvent m := by
  rw [Bool.eq_iff_iff, heardEvent_iff, heardEvent_iff]
  refine exists_congr fun c => ?_
  rw [hears_hear hm]
  refine and_congr_right fun h => ?_
  rw [hear_keeps_heard hm (.inl h.2.2)]

theorem hear_du (n : SlotNo) : (s.hear n).du =
    if s.heardEvent n = true then s.du.raised .unstranded ((s.slot n).channel.getD 0) else s.du := by
  by_cases hn : ∃ c, s.hears n c
  · obtain ⟨c, hc⟩ := hn
    rw [hear_eq hc.1 hc.2, hc.1]
    refine ite_congr (propext ?_) (fun _ => rfl) fun _ => rfl
    rw [heardEvent_iff]
    refine ⟨fun h => ⟨c, hc, h⟩, fun ⟨d, hd, h⟩ => ?_⟩
    rwa [Option.some.inj (hd.1.symm.trans hc.1)] at h
  · rw [hear_stale fun c hc h => hn ⟨c, hc, h⟩, if_neg fun h => hn ?_]
    obtain ⟨c, hc, -⟩ := heardEvent_iff.mp h
    exact ⟨c, hc⟩

/-- Heard claims alone: each is taken, and no other acts on its channel. -/
theorem takeHeard_of_all_heard {l : List SlotNo} (hl : l.Nodup) (hdue : s.due = l.map Due.heard) :
    s.takeHeard.due = [] ∧
    (∀ n c, n ∈ l → s.hears n c → s.takeHeard.channel c =
      { (s.channel c).moved .retired .fibre .idle .live with cause := none }) ∧
    (∀ c, (∀ n ∈ l, ¬ s.hears n c) → s.takeHeard.channel c = s.channel c) ∧
    s.takeHeard.du = (l.filter s.heardEvent).foldl (fun d n => d.raised .unstranded ((s.slot n).channel.getD 0)) s.du := by
  induction l generalizing s with
  | nil =>
    rw [takeHeard_of_head fun n rest h => by rw [hdue] at h; cases h]
    exact ⟨hdue, fun _ _ h _ => absurd h List.not_mem_nil, fun _ _ => rfl, rfl⟩
  | cons n l ih =>
    obtain ⟨hn, hl⟩ := List.nodup_cons.mp hl
    let v : State := { s with due := l.map Due.heard }
    have hne {m : SlotNo} (hm : m ∈ l) : m ≠ n := fun e => hn (e ▸ hm)
    obtain ⟨hdone, hheard, hkept, hdu⟩ := ih (s := v.hear n) hl (hear_due v n)
    rw [takeHeard_cons hdue]
    refine ⟨hdone, fun m c hm hc => ?_, fun c hc => ?_, ?_⟩
    · by_cases hmn : m = n
      · subst hmn
        have hc' : v.hears m c := hc
        refine (hkept c fun k hk hkc => ?_).trans (hear_of_hears hc').1
        have hkc : v.hears k c := (hears_hear (hne hk)).mp hkc
        exact hne hk (Option.some.inj (hkc.2.2.symm.trans hc'.2.2))
      · have hml := (List.mem_cons.mp hm).resolve_left hmn
        refine (hheard m c hml ((hears_hear hmn).mpr hc)).trans ?_
        rw [hear_keeps_heard (s := v) hmn (.inl hc.2.2)]
        rfl
    · refine (hkept c fun m hm hmc => hc m (List.mem_cons_of_mem _ hm) ((hears_hear (s := v) (hne hm)).mp hmc)).trans ?_
      by_cases hd : ∃ d, v.hears n d
      · obtain ⟨d, hd⟩ := hd
        exact (hear_of_hears hd).2 c fun e => hc n List.mem_cons_self (e ▸ hd)
      · rw [hear_stale fun d hd' h => hd ⟨d, hd', h⟩]
        rfl
    · have hfilter : l.filter (v.hear n).heardEvent = l.filter s.heardEvent :=
        List.filter_congr fun m hm => heardEvent_hear (s := v) (hne hm)
      refine hdu.trans ?_
      rw [hfilter, hear_du, List.filter_cons]
      simp only [slot_hear]
      show List.foldl _ (if s.heardEvent n = true then s.du.raised .unstranded ((s.slot n).channel.getD 0) else s.du) _ = _
      split <;> rfl

/-! ## Events -/

end State

/-- An event has been raised: it stands in the queue, or LOST is set (R164). -/
def DirectiveUnit.shows (d : DirectiveUnit) (e : Event) : Prop := e ∈ d.events ∨ d.lost = true

theorem DirectiveUnit.shows_raised_self (d : DirectiveUnit) (k : EventKind) (c : Channel) : (d.raised k c).shows ⟨k, c⟩ := by
  unfold raised shows
  split
  · exact .inl (List.mem_append_right _ List.mem_cons_self)
  · exact .inr rfl

theorem DirectiveUnit.shows_raised {d : DirectiveUnit} {e : Event} (h : d.shows e) (k : EventKind) (c : Channel) :
    (d.raised k c).shows e := by
  unfold raised shows
  split
  · exact h.imp (List.mem_append_left _) id
  · exact .inr rfl

theorem DirectiveUnit.shows_foldl {d : DirectiveUnit} {e : Event} (h : d.shows e) (k : EventKind) (f : SlotNo → Channel)
    (l : List SlotNo) : (l.foldl (fun d n => d.raised k (f n)) d).shows e := by
  induction l generalizing d with
  | nil => exact h
  | cons n l ih => exact ih (shows_raised h k _)

theorem DirectiveUnit.shows_foldl_of_mem (d : DirectiveUnit) (k : EventKind) (f : SlotNo → Channel) {l : List SlotNo}
    {n : SlotNo} (hn : n ∈ l) : (l.foldl (fun d n => d.raised k (f n)) d).shows ⟨k, f n⟩ := by
  induction l generalizing d with
  | nil => cases hn
  | cons m l ih =>
    obtain rfl | hn := List.mem_cons.mp hn
    · exact shows_foldl (shows_raised_self d k _) k f l
    · exact ih _ hn

/-- Raising changes the events and LOST alone. -/
theorem DirectiveUnit.foldl_raised_rest (d : DirectiveUnit) (k : EventKind) (f : SlotNo → Channel) (l : List SlotNo) :
    { l.foldl (fun d n => d.raised k (f n)) d with events := d.events, lost := d.lost } = d := by
  induction l generalizing d with
  | nil => rfl
  | cons n l ih =>
    have hstep : { d.raised k (f n) with events := d.events, lost := d.lost } = d := by
      unfold raised
      split <;> rfl
    exact (congrArg (fun x : DirectiveUnit => { x with events := d.events, lost := d.lost }) (ih _)).trans hstep

end Machine
end Sys2Proof
end

section
/-! SUPPORT. A frame that is used: its records in the slots, its report, and the statement that they settle (R74, R75, R89). -/

namespace Sys2Proof.Machine

theorem SlotEntry.inUse_iff (e : SlotEntry) : e.inUse = true ↔ e.state ≠ .free ∧ e.state ≠ .barred := by
  unfold inUse
  cases e.state <;> simp

theorem SlotEntry.inUse_of_held {e : SlotEntry} (h : e.state = .held) : e.inUse = true := by
  unfold inUse
  rw [h]

/-- The live run after a report (R89). -/
def SlotEntry.liveAfter (e : SlotEntry) (p : Phase) (k : Option ArrivalKind) : Nat :=
  if k = some .live then (if p = .shadow ∨ p = .fallen then 0 else min 255 (e.liveRun + 1))
  else if k = some .unknown then e.liveRun else 0

/-- The shadow run after a report (R89). -/
def SlotEntry.shadowAfter (e : SlotEntry) (k : Option ArrivalKind) : Nat :=
  if k = some .shadow then min 255 (e.shadowRun + 1) else if k = some .unknown then e.shadowRun else 0

/-- The orphan count after a report (R89). -/
def SlotEntry.orphanAfter (e : SlotEntry) (k : Option ArrivalKind) : Nat :=
  if ¬ e.state = .held then e.orphanCount else if k = none then min 65535 (e.orphanCount + 1) else 0

/-- The entry of a slot in use after the records and the report of a frame, field by field. -/
theorem SlotEntry.reported_eq (e : SlotEntry) (a : Option Arrival) (p : Phase) (k : Option ArrivalKind) :
    ((e.arrived a).stepReport p k).aheadTested p k = { e with
      latch := if a = none then e.latch else a
      orphanCount := e.orphanAfter k
      liveRun := e.liveAfter p k
      shadowRun := e.shadowAfter k
      peerAhead := if k = some .live then e.peerAhead || decide (e.state = .held ∧ (p = .shadow ∨ p = .fallen))
        else if k = some .unknown then e.peerAhead else false
      peerShadow := if k = some .shadow ∨ k = some .unknown then e.peerShadow else false
      followDue := e.followDue ||
        decide (e.state = .held ∧ (p = .proven ∨ p = .cutting) ∧ k = some .live ∧ 8 ≤ e.liveAfter p k) } := by
  unfold stepReport aheadTested getsAhead arrived orphanAfter liveAfter shadowAfter Config.runLimit
  cases k with
  | none => by_cases hheld : e.state = .held <;> simp [hheld]
  | some k =>
    cases k with
    | live =>
      by_cases hheld : e.state = .held <;> by_cases huncut : p = .shadow ∨ p = .fallen <;>
        cases e.peerAhead <;> simp [hheld, huncut]
    | shadow => by_cases hheld : e.state = .held <;> simp [hheld]
    | unknown => by_cases hheld : e.state = .held <;> simp [hheld]

namespace State

/-- The state of a frame once its records stand in the latches and its mark is GOOD (R74, R75). -/
def stored (s : State) (records : List ReceivedRecord) : State :=
  let t := records.foldl storeRecord s
  { t with cl := { t.cl with markGood := true } }

theorem useFrame_eq (s : State) (f : ReceivedFrame) : s.useFrame f =
    (((s.takeReply f.reply).takeNotice f.notice).stored f.records).report (namedKinds f.records) := rfl

section
variable (s : State) (records : List ReceivedRecord)

theorem stored_rest : { s.stored records with cl := s.cl, sn := { (s.stored records).sn with slots := s.sn.slots } } = s :=
  congrArg (fun v : State => { v with cl := s.cl }) (storeRecords_rest s records)

theorem stored_cl : (s.stored records).cl = { s.cl with markGood := true } := by
  have h := congrArg State.cl (storeRecords_rest s records)
  change (records.foldl storeRecord s).cl = s.cl at h
  show { (records.foldl storeRecord s).cl with markGood := true } = _
  rw [h]

theorem stored_channel (c : Channel) : (s.stored records).channel c = s.channel c := by
  have h := congrArg State.cm (storeRecords_rest s records)
  change (records.foldl storeRecord s).cm = s.cm at h
  show (Assoc.find (records.foldl storeRecord s).cm c).getD .reset = _
  rw [h]
  rfl

theorem stored_slot (n : SlotNo) : (s.stored records).slot n =
    if (s.slot n).inUse = true then (s.slot n).arrived (lastArrival records n) else s.slot n :=
  slot_storeRecords s records n

theorem stored_order (h : s.slotsInOrder) : (s.stored records).slotsInOrder := by
  have hrecords := Orderly.foldl (f := storeRecord) (fun h => h.storeRecord _) records (Orderly.refl s)
  exact hrecords.slots h

end

/-- The state of a used frame once its records are stored, the slots have stepped and the tests of R104 have been made. -/
def counting (s : State) (f : ReceivedFrame) : State := (s.stored f.records).counted (namedKinds f.records)

section
variable {s : State} {f : ReceivedFrame} {n : SlotNo} {c : Channel}

theorem counting_rest (s : State) (f : ReceivedFrame) : { s.counting f with
    cl := s.cl
    sn := { (s.counting f).sn with slots := s.sn.slots }
    du := s.du } = s := by
  have hcounted := congrArg (fun v : State => { v with cl := s.cl, sn := { v.sn with slots := s.sn.slots }, du := s.du })
    (counted_rest (s.stored f.records) (namedKinds f.records))
  have hstored := congrArg (fun v : State => { v with du := s.du }) (stored_rest s f.records)
  exact hcounted.trans hstored

theorem counting_channel (s : State) (f : ReceivedFrame) (c : Channel) : (s.counting f).channel c = s.channel c := by
  have h := congrArg State.cm (counting_rest s f)
  change (s.counting f).cm = s.cm at h
  unfold channel
  rw [h]

theorem counting_due (s : State) (f : ReceivedFrame) : (s.counting f).due = s.due := by
  have h := congrArg State.due (counting_rest s f)
  exact h

theorem counting_params (s : State) (f : ReceivedFrame) : (s.counting f).sc.params = s.sc.params := by
  have h := congrArg (fun v : State => v.sc.params) (counting_rest s f)
  exact h

theorem counting_cl (s : State) (f : ReceivedFrame) : (s.counting f).cl = { s.cl with markGood := true } := by
  have h := congrArg State.cl (counted_rest (s.stored f.records) (namedKinds f.records))
  exact Eq.trans h (stored_cl s f.records)

theorem counting_order (h : s.slotsInOrder) (f : ReceivedFrame) : (s.counting f).slotsInOrder :=
  counted_order (stored_order s f.records h) _

/-- The entry of a slot in use by a channel. -/
theorem counting_slot (h : s.slotsInOrder) (hu : (s.slot n).inUse = true) (hc : (s.slot n).channel = some c) :
    (s.counting f).slot n = (((s.slot n).arrived (lastArrival f.records n)).stepReport (s.channel c).phase
      ((lastArrival f.records n).map Arrival.kind)).aheadTested (s.channel c).phase
      ((lastArrival f.records n).map Arrival.kind) := by
  have hstored : (s.stored f.records).slot n = (s.slot n).arrived (lastArrival f.records n) :=
    (stored_slot s f.records n).trans (if_pos hu)
  have hcounted := slot_counted (named := namedKinds f.records) (stored_order s f.records h) (n := n) (c := c)
    (by rw [hstored]; exact hu) (by rw [hstored]; exact hc)
  rw [hstored, stored_channel, find_namedKinds] at hcounted
  exact hcounted

/-- The other entries: a slot not in use stays, and none names another channel or is in another state. -/
theorem counting_slot_idle (h : s.slotsInOrder) (hidle : ¬ ((s.slot n).inUse = true ∧ ∃ c, (s.slot n).channel = some c)) :
    (s.counting f).slot n = (s.stored f.records).slot n := by
  refine slot_counted_idle (stored_order s f.records h) ?_
  rw [stored_slot]
  split
  · exact hidle
  · exact hidle

theorem counting_slot_free (h : s.slotsInOrder) (hfree : ¬ (s.slot n).inUse = true) :
    (s.counting f).slot n = s.slot n :=
  (counting_slot_idle h fun hu => hfree hu.1).trans ((stored_slot s f.records n).trans (if_neg hfree))

theorem counting_slot_state (h : s.slotsInOrder) (n : SlotNo) : ((s.counting f).slot n).state = (s.slot n).state ∧
    ((s.counting f).slot n).channel = (s.slot n).channel := by
  by_cases hin : (s.slot n).inUse = true ∧ ∃ c, (s.slot n).channel = some c
  · obtain ⟨hu, c, hc⟩ := hin
    rw [counting_slot h hu hc, SlotEntry.reported_eq]
    exact ⟨rfl, rfl⟩
  · rw [counting_slot_idle h hin, stored_slot]
    split <;> exact ⟨rfl, rfl⟩

theorem mem_counting_slotsWhere (h : s.slotsInOrder) {p : SlotNo → Channel → Bool} :
    n ∈ (s.counting f).slotsWhere p ↔
      (s.slot n).inUse = true ∧ ∃ c, (s.slot n).channel = some c ∧ p n c = true := by
  obtain ⟨hstate, hchannel⟩ := counting_slot_state (f := f) h n
  rw [mem_slotsWhere, hchannel]
  unfold SlotEntry.inUse
  rw [hstate]

theorem mem_shadowSlots (h : s.slotsInOrder) : n ∈ (s.counting f).shadowSlots (namedKinds f.records) ↔
    (s.slot n).state = .held ∧ (∃ c, (s.slot n).channel = some c ∧ (s.channel c).phase = .carried) ∧
    (lastArrival f.records n).map Arrival.kind = some .shadow ∧
    8 ≤ (s.slot n).shadowAfter ((lastArrival f.records n).map Arrival.kind) ∧ (s.slot n).peerShadow = false := by
  unfold shadowSlots
  rw [mem_counting_slotsWhere h]
  have hentry {c : Channel} (hu : (s.slot n).inUse = true) (hc : (s.slot n).channel = some c)
      (hkind : (lastArrival f.records n).map Arrival.kind = some .shadow) :
      ((s.counting f).slot n).state = (s.slot n).state ∧
      ((s.counting f).slot n).shadowRun = (s.slot n).shadowAfter (some .shadow) ∧
      ((s.counting f).slot n).peerShadow = (s.slot n).peerShadow := by
    rw [counting_slot h hu hc, SlotEntry.reported_eq, hkind]
    exact ⟨rfl, rfl, rfl⟩
  simp only [find_namedKinds, counting_channel, Bool.and_eq_true, decide_eq_true_eq, peerShadowHolds_iff]
  constructor
  · rintro ⟨hu, c, hc, hkind, hheld, hphase, hrun, hmark⟩
    obtain ⟨hstate, hshadow, hpeer⟩ := hentry hu hc hkind
    rw [hkind]
    exact ⟨hstate ▸ hheld, ⟨c, hc, hphase⟩, rfl, hshadow ▸ hrun, hpeer ▸ hmark⟩
  · rintro ⟨hheld, ⟨c, hc, hphase⟩, hkind, hrun, hmark⟩
    have hu := SlotEntry.inUse_of_held hheld
    obtain ⟨hstate, hshadow, hpeer⟩ := hentry hu hc hkind
    rw [hkind] at hrun
    exact ⟨hu, c, hc, hkind, hstate.trans hheld, hphase, hshadow.symm ▸ hrun, hpeer.trans hmark⟩

theorem mem_silentSlots (h : s.slotsInOrder) : n ∈ (s.counting f).silentSlots (namedKinds f.records) ↔
    (s.slot n).state = .held ∧ (s.slot n).channel ≠ none ∧ (lastArrival f.records n).map Arrival.kind = none ∧
    s.sc.params.orphanFrames ≤ (s.slot n).orphanAfter ((lastArrival f.records n).map Arrival.kind) := by
  unfold silentSlots
  rw [mem_counting_slotsWhere h]
  have hentry {c : Channel} (hu : (s.slot n).inUse = true) (hc : (s.slot n).channel = some c) :
      ((s.counting f).slot n).orphanCount = (s.slot n).orphanAfter ((lastArrival f.records n).map Arrival.kind) := by
    rw [counting_slot h hu hc, SlotEntry.reported_eq]
  simp only [find_namedKinds, (counting_slot_state (f := f) h n).1, counting_params, decide_eq_true_eq]
  constructor
  · rintro ⟨hu, c, hc, hheld, hkind, hcount⟩
    rw [hentry hu hc] at hcount
    exact ⟨hheld, fun hnone => Option.some_ne_none c (hc.symm.trans hnone), hkind, hcount⟩
  · rintro ⟨hheld, hchannel, hkind, hcount⟩
    obtain ⟨c, hc⟩ := Option.ne_none_iff_exists'.mp hchannel
    have hu := SlotEntry.inUse_of_held hheld
    exact ⟨hu, c, hc, hheld, hkind, (hentry hu hc).symm ▸ hcount⟩

theorem mem_heardSlots (h : s.slotsInOrder) : n ∈ (s.counting f).heardSlots (namedKinds f.records) ↔
    (s.slot n).inUse = true ∧ (∃ c, (s.slot n).channel = some c ∧ (s.channel c).phase = .stranded) ∧
    ((lastArrival f.records n).map Arrival.kind = some .live ∨
      (lastArrival f.records n).map Arrival.kind = some .shadow) := by
  unfold heardSlots
  rw [mem_counting_slotsWhere h]
  simp only [find_namedKinds, counting_channel, decide_eq_true_eq]
  constructor
  · rintro ⟨hu, c, hc, hkind, hphase⟩
    exact ⟨hu, ⟨c, hc, hphase⟩, hkind⟩
  · rintro ⟨hu, ⟨c, hc, hphase⟩, hkind⟩
    exact ⟨hu, c, hc, hkind, hphase⟩

theorem mem_stored_aheadSlots (h : s.slotsInOrder) :
    n ∈ (s.stored f.records).aheadSlots (namedKinds f.records) ↔
      (s.slot n).state = .held ∧ (∃ c, (s.slot n).channel = some c ∧
        ((s.channel c).phase = .shadow ∨ (s.channel c).phase = .fallen)) ∧
      (lastArrival f.records n).map Arrival.kind = some .live ∧ (s.slot n).peerAhead = false := by
  rw [mem_aheadSlots (stored_order s f.records h), stored_slot, find_namedKinds]
  simp only [stored_channel]
  split <;> exact Iff.rfl

end

theorem counting_du {s : State} (h : s.slotsInOrder) (f : ReceivedFrame) : (s.counting f).du =
    ((s.stored f.records).aheadSlots (namedKinds f.records)).foldl
      (fun d n => d.raised .peerAhead ((s.slot n).channel.getD 0)) s.du := by
  have hdu := congrArg State.du (stored_rest s f.records)
  change (s.stored f.records).du = s.du at hdu
  refine (counted_du (stored_order s f.records h) _).trans ?_
  rw [hdu]
  refine foldl_congr_of_mem (fun d n _ => ?_) _
  have hchannel : ((s.stored f.records).slot n).channel = (s.slot n).channel := by
    rw [stored_slot]
    split <;> rfl
  rw [hchannel]

/-- A used frame before its heard claims are taken. -/
def untaken (s : State) (f : ReceivedFrame) : State :=
  { s.counting f with
    due := (s.counting f).reportDue (namedKinds f.records) ++
      ((s.counting f).heardSlots (namedKinds f.records)).map Due.heard }

theorem untaken_hears {s : State} {f : ReceivedFrame} (h : s.slotsInOrder) (n : SlotNo) (c : Channel) :
    (s.untaken f).hears n c ↔ s.hears n c := by
  have hchannel : ((s.untaken f).slot n).channel = (s.slot n).channel := (counting_slot_state (f := f) h n).2
  have hrecord : (s.untaken f).channel c = s.channel c := counting_channel s f c
  unfold hears
  rw [hchannel, hrecord]

theorem untaken_heardEvent {s : State} {f : ReceivedFrame} (h : s.slotsInOrder) (n : SlotNo) :
    (s.untaken f).heardEvent n = true ↔ ∃ c, s.hears n c ∧ (s.channel c).cause = some .silence := by
  have hrecord (c : Channel) : (s.untaken f).channel c = s.channel c := counting_channel s f c
  rw [heardEvent_iff]
  simp only [untaken_hears h, hrecord]

/-- The head of the due steps is no heard claim where one of another kind stands there. -/
theorem untaken_head {s : State} {f : ReceivedFrame} (h : ∀ m, .heard m ∉ s.due)
    (hfirst : (s.counting f).reportDue (namedKinds f.records) ≠ []) (n : SlotNo) (rest : List Due) :
    (s.untaken f).due ≠ .heard n :: rest := by
  intro hdue
  obtain ⟨d, l, hl⟩ := List.exists_cons_of_ne_nil hfirst
  have hhead : d = .heard n := by
    have hcons : (s.counting f).reportDue (namedKinds f.records) ++
      ((s.counting f).heardSlots (namedKinds f.records)).map Due.heard = .heard n :: rest := hdue
    rw [hl] at hcons
    exact (List.cons.inj hcons).1
  have hmem : Due.heard n ∈ (s.counting f).reportDue (namedKinds f.records) := by
    rw [hl, hhead]
    exact List.mem_cons_self
  unfold reportDue at hmem
  rw [counting_due] at hmem
  obtain hmem | hmem := List.mem_append.mp hmem
  · obtain hmem | hmem := List.mem_append.mp hmem
    · exact h n hmem
    · obtain ⟨m, -, hm⟩ := List.mem_map.mp hmem
      cases hm
  · obtain ⟨m, -, hm⟩ := List.mem_map.mp hmem
    cases hm

end State

/-- Settles O52: the walks by `counting_slot` and the lists of slots that the tests meet, the heard claims by
`takeHeard_of_all_heard`. -/
theorem usedFrameStoresRecordsAndStepsTheSlots : Obligations.UsedFrameStoresRecordsAndStepsTheSlots := by
  intro f s hslots hnone u t
  have horder : u.slotsInOrder := (((Orderly.refl s).takeReply f.reply).takeNotice f.notice).slots hslots
  have hheardNone : ∀ m, .heard m ∉ u.due := State.heard_not_due_after_header hnone f
  have htaken : t = (u.untaken f).takeHeard := (State.useFrame_eq s f).trans (State.report_eq _ _)
  clear_value t u
  let first := u.due ++ ((u.counting f).shadowSlots (namedKinds f.records)).map Due.peerShadow ++
    ((u.counting f).silentSlots (namedKinds f.records)).map Due.orphanTest
  have hfirstEq : (u.counting f).reportDue (namedKinds f.records) = first := by
    unfold State.reportDue
    rw [State.counting_due]
  let heards := (u.counting f).heardSlots (namedKinds f.records)
  have hrest : { t with cm := u.cm, du := u.du, due := u.due } = { u.counting f with du := u.du } := by
    rw [htaken]
    have hkeep := congrArg (fun v : State => { v with cm := u.cm, du := u.du, due := u.due })
      (takeHeard_rest (u.untaken f))
    refine hkeep.trans ?_
    have hcm := congrArg State.cm (State.counting_rest u f)
    change (u.counting f).cm = u.cm at hcm
    have hdue := State.counting_due u f
    rw [← hcm, ← hdue]
    rfl
  have hslot (n : SlotNo) : t.slot n = (u.counting f).slot n := by
    show State.slot { t with cm := u.cm, du := u.du, due := u.due } n = _
    rw [hrest]
    rfl
  have hphase {n : SlotNo} {c : Channel} (hc : (u.slot n).channel = some c) (p : Phase) :
      (∃ d, (u.slot n).channel = some d ∧ (u.channel d).phase = p) ↔ (u.channel c).phase = p := by
    rw [hc]
    exact ⟨fun ⟨d, hd, h⟩ => (Option.some.inj hd).symm ▸ h, fun h => ⟨c, rfl, h⟩⟩
  have hinOrder := State.counting_order horder f
  have hheards : heards.Pairwise (· < ·) := State.slotsWhere_pairwise hinOrder _
  let named (n : SlotNo) : Channel := (u.slot n).channel.getD 0
  let aheads := (u.stored f.records).aheadSlots (namedKinds f.records)
  let back := if first = [] then heards.filter (u.untaken f).heardEvent else []
  have hbackFirst : first = [] → back = heards.filter (u.untaken f).heardEvent := fun hfirst => if_pos hfirst
  have hbackLater : first ≠ [] → back = [] := fun hfirst => if_neg hfirst
  have hsettled : first = [] → (u.untaken f).due = heards.map Due.heard := fun hfirst => by
    show (u.counting f).reportDue _ ++ heards.map Due.heard = _
    rw [hfirstEq, hfirst, List.nil_append]
  have hwaiting : first ≠ [] → t = u.untaken f := fun hfirst =>
    htaken.trans (takeHeard_of_head (State.untaken_head hheardNone (hfirstEq.symm ▸ hfirst)))
  have hdu : t.du = back.foldl (fun d n => d.raised .unstranded (named n))
      (aheads.foldl (fun d n => d.raised .peerAhead (named n)) u.du) := by
    rw [← State.counting_du horder f]
    by_cases hfirst : first = []
    · obtain ⟨-, -, -, h⟩ := State.takeHeard_of_all_heard (hheards.imp fun h => Fin.ne_of_lt h) (hsettled hfirst)
      rw [htaken, h, hbackFirst hfirst]
      refine foldl_congr_of_mem (fun d n _ => ?_) _
      rw [show ((u.untaken f).slot n).channel = (u.slot n).channel from (State.counting_slot_state horder n).2]
    · rw [hwaiting hfirst, hbackLater hfirst]
      rfl
  have hshows {n : SlotNo} {c : Channel} (hn : n ∈ aheads) (hc : (u.slot n).channel = some c) :
      t.du.shows ⟨.peerAhead, c⟩ := by
    have hraised := DirectiveUnit.shows_foldl_of_mem u.du .peerAhead named hn
    rw [show named n = c from congrArg (Option.getD · 0) hc] at hraised
    rw [hdu]
    exact DirectiveUnit.shows_foldl hraised _ _ _
  have hrecord (c : Channel) : (u.untaken f).channel c = u.channel c := State.counting_channel u f c
  have hstranded {n : SlotNo} {c : Channel} (hn : n ∈ heards) (hc : (u.slot n).channel = some c) :
      (u.channel c).phase = .stranded := by
    obtain ⟨-, ⟨d, hd, h⟩, -⟩ := (State.mem_heardSlots horder).mp hn
    exact Option.some.inj (hd.symm.trans hc) ▸ h
  refine ⟨?_, ?_, fun n hidle => ?_, fun n c hu hc => ⟨?_, fun hheld huncut hlive hmark => ?_⟩,
    ⟨(u.counting f).shadowSlots (namedKinds f.records), (u.counting f).silentSlots (namedKinds f.records), heards,
      State.slotsWhere_pairwise hinOrder _,
      State.slotsWhere_pairwise hinOrder _, hheards, fun n => State.mem_shadowSlots horder,
      fun n => State.mem_silentSlots horder, fun n => ?_, ⟨aheads, back, ?_, ?_, fun n => ?_, fun n => ?_, hdu⟩,
      fun hfirst => ?_, fun hfirst => ⟨?_, fun n c hn hc hslotOf => ⟨?_, fun hcause => ?_⟩⟩⟩, fun c hc => ?_⟩
  · have hcl := congrArg State.cl hrest
    exact Eq.trans hcl (State.counting_cl u f)
  · have hkept : { t.du with events := u.du.events, lost := u.du.lost } = u.du := by
      rw [hdu]
      exact (congrArg (fun d : DirectiveUnit => { d with events := u.du.events, lost := u.du.lost })
        (DirectiveUnit.foldl_raised_rest _ _ _ back)).trans (DirectiveUnit.foldl_raised_rest _ _ _ aheads)
    have hcounted := congrArg (fun v : State => { v with cl := u.cl, sn := { v.sn with slots := u.sn.slots }, du := u.du })
      hrest
    refine (congrArg (fun d : DirectiveUnit => { t with
      cl := u.cl, cm := u.cm, sn := { t.sn with slots := u.sn.slots }, du := d, due := u.due }) hkept).trans ?_
    exact Eq.trans hcounted (State.counting_rest u f)
  · refine (hslot n).trans (State.counting_slot_free horder fun hu => hidle ?_)
    exact (SlotEntry.inUse_iff _).mp hu
  · rw [hslot, State.counting_slot horder ((SlotEntry.inUse_iff _).mpr hu) hc, SlotEntry.reported_eq]
    dsimp only
    simp only [hphase hc]
    rfl
  · refine hshows (State.mem_stored_aheadSlots horder |>.mpr ⟨hheld, ⟨c, hc, ?_⟩, hlive, hmark⟩) hc
    exact huncut.imp (hphase hc _).mp (hphase hc _).mp
  · refine (State.mem_heardSlots horder).trans (and_congr_left' (SlotEntry.inUse_iff _))
  · exact State.slotsWhere_pairwise (State.stepped_order (State.stored_order _ _ horder) _) _
  · by_cases hfirst : first = []
    · rw [hbackFirst hfirst]
      exact hheards.filter _
    · rw [hbackLater hfirst]
      exact List.Pairwise.nil
  · refine (State.mem_stored_aheadSlots horder).trans (and_congr_right fun _ => and_congr_left fun _ => ?_)
    constructor
    · rintro ⟨c, hc, hp⟩
      exact hp.imp (fun h => ⟨c, hc, h⟩) fun h => ⟨c, hc, h⟩
    · rintro (⟨c, hc, hp⟩ | ⟨c, hc, hp⟩)
      · exact ⟨c, hc, .inl hp⟩
      · exact ⟨c, hc, .inr hp⟩
  · by_cases hfirst : first = []
    · rw [hbackFirst hfirst, List.mem_filter, State.untaken_heardEvent horder]
      constructor
      · rintro ⟨hn, c, hc, hcause⟩
        exact ⟨hfirst, hn, c, hc.1, hc.2.2, hcause⟩
      · rintro ⟨-, hn, c, hc, hslotOf, hcause⟩
        obtain ⟨-, ⟨d, hd, hstranded⟩, -⟩ := (State.mem_heardSlots horder).mp hn
        rw [Option.some.inj (hd.symm.trans hc)] at hstranded
        exact ⟨hn, c, ⟨hc, hstranded, hslotOf⟩, hcause⟩
    · rw [hbackLater hfirst]
      exact ⟨fun h => absurd h List.not_mem_nil, fun h => absurd h.1 hfirst⟩
  · rw [hwaiting hfirst]
    refine ⟨congrArg (· ++ heards.map Due.heard) hfirstEq, ?_⟩
    have hcm := congrArg State.cm (State.counting_rest u f)
    exact hcm
  · rw [htaken]
    exact (State.takeHeard_of_all_heard (hheards.imp fun h => Fin.ne_of_lt h) (hsettled hfirst)).1
  · rw [htaken]
    refine ((State.takeHeard_of_all_heard (hheards.imp fun h => Fin.ne_of_lt h) (hsettled hfirst)).2.1 n c hn
      ((State.untaken_hears horder n c).mpr ⟨hc, hstranded hn hc, hslotOf⟩)).trans ?_
    rw [hrecord]
  · have hn : n ∈ back := by
      rw [hbackFirst hfirst, List.mem_filter, State.untaken_heardEvent horder]
      exact ⟨hn, c, ⟨hc, hstranded hn hc, hslotOf⟩, hcause⟩
    have hraised := DirectiveUnit.shows_foldl_of_mem (aheads.foldl (fun d n => d.raised .peerAhead (named n)) u.du)
      .unstranded named hn
    rw [show named n = c from congrArg (Option.getD · 0) hc] at hraised
    rw [hdu]
    exact hraised
  · by_cases hfirst : first = []
    · rw [htaken]
      refine ((State.takeHeard_of_all_heard (hheards.imp fun h => Fin.ne_of_lt h) (hsettled hfirst)).2.2.1 c
        fun n _ hears => hc ((State.untaken_hears horder n c).mp hears).2.1).trans (hrecord c)
    · rw [hwaiting hfirst]
      exact hrecord c

end Sys2Proof.Machine
end

section
/-! SUPPORT. What the counting of a boundary makes of each block, and the rows that make a boundary (R18 to R21, R76, R87,
R88, R99, R113, R115). -/

namespace Sys2Proof.Machine

/-- A write one boundary nearer the end of its PAUSE, where it is in one (R148). -/
def Flight.waited (f : Flight) : Flight :=
  { f with stage := match f.stage with
    | .pause (m + 1) => .pause m
    | x => x }

namespace State

/-! ## The counts of a boundary, block by block -/

theorem endGuard_rest (s : State) (c : Channel) :
    { s.endGuard c with bi := { (s.endGuard c).bi with registers := s.bi.registers } } = s := by
  unfold endGuard
  split <;> rfl

/-- What the guards that end leave of a state (R113): all but the registers. -/
theorem endGuards_keeps {β : Type} (g : State → β) (hg : ∀ (u : State) r, g { u with bi := { u.bi with registers := r } } = g u)
    (l : List Channel) (s : State) : g (l.foldl endGuard s) = g s := by
  refine foldl_keeps g endGuard (fun u c => ?_) l s
  have h := congrArg g (endGuard_rest u c)
  rw [← h]
  exact (hg _ _).symm

/-- The control of the store after a boundary's PAUSE step (R148). -/
theorem pauseStep_sc (s : State) : s.pauseStep.1.sc = { s.sc with flight := s.sc.flight.map Flight.waited } := by
  unfold pauseStep
  rcases hflight : s.sc.flight with _ | ⟨r, p, stage⟩
  · exact congrArg (fun f => { s.sc with flight := f }) hflight
  rcases stage with _ | _ | _ | _ | m
  case pause.succ => rfl
  all_goals exact congrArg (fun f => { s.sc with flight := f }) hflight

theorem pauseStep_keeps {β : Type} (g : State → β) (hg : ∀ (u : State) f, g (u.setFlight f) = g u) (s : State) :
    g s.pauseStep.1 = g s := by
  unfold pauseStep
  split
  · exact hg _ _
  · rfl

/-- The state of a boundary once the slots, the contexts and the loss count have stepped, before the routes latch. -/
def ticked (s : State) : State :=
  { s.tick with sn := { s.sn with
    slots := Assoc.mapValues (fun _ e => e.boundary) s.sn.slots
    schedules := stepSchedules s.sn.schedules
    outstanding := s.sn.outstanding.map Outstanding.boundary } }

/-- The state of a boundary before the guards end and PAUSE steps. -/
def latched (s : State) : State :=
  latchRoutes { s.ticked with
    cp := { s.cp with contexts := Assoc.mapValues (fun _ x => s.ticked.contextStep x) s.cp.contexts }
    cl := s.cl.countLoss }

theorem countAll_eq (s : State) : s.countAll = (s.ticked.guardsOver.foldl endGuard s.latched).pauseStep.1 := rfl

section
variable (s : State)

theorem countAll_keeps {β : Type} (g : State → β) (hr : ∀ (u : State) r, g { u with bi := { u.bi with registers := r } } = g u)
    (hf : ∀ (u : State) f, g (u.setFlight f) = g u) : g s.countAll = g s.latched := by
  rw [countAll_eq, pauseStep_keeps g hf, endGuards_keeps g hr]

theorem countAll_sn : s.countAll.sn = { s.sn with
    slots := Assoc.mapValues (fun _ e => e.boundary) s.sn.slots
    schedules := stepSchedules s.sn.schedules
    outstanding := s.sn.outstanding.map Outstanding.boundary } :=
  countAll_keeps s State.sn (fun _ _ => rfl) fun _ _ => rfl

theorem countAll_cm : s.countAll.cm = Assoc.mapValues (fun _ r => r.latchRoute) s.cm :=
  countAll_keeps s State.cm (fun _ _ => rfl) fun _ _ => rfl

theorem countAll_cp : s.countAll.cp =
    { s.cp with contexts := Assoc.mapValues (fun _ x => s.ticked.contextStep x) s.cp.contexts } :=
  countAll_keeps s State.cp (fun _ _ => rfl) fun _ _ => rfl

theorem countAll_cl : s.countAll.cl = s.cl.countLoss :=
  countAll_keeps s State.cl (fun _ _ => rfl) fun _ _ => rfl

theorem countAll_du : s.countAll.du = s.du := countAll_keeps s State.du (fun _ _ => rfl) fun _ _ => rfl

theorem countAll_due : s.countAll.due = s.due := countAll_keeps s State.due (fun _ _ => rfl) fun _ _ => rfl

theorem countAll_freeUsed : s.countAll.freeUsed = s.freeUsed :=
  countAll_keeps s State.freeUsed (fun _ _ => rfl) fun _ _ => rfl

theorem countAll_part : s.countAll.part = s.part := countAll_keeps s State.part (fun _ _ => rfl) fun _ _ => rfl

theorem countAll_pairing : s.countAll.bi.pairing = s.bi.pairing :=
  countAll_keeps s (fun u => u.bi.pairing) (fun _ _ => rfl) fun _ _ => rfl

theorem countAll_sc : s.countAll.sc = { s.sc with flight := s.sc.flight.map Flight.waited } := by
  rw [countAll_eq, pauseStep_sc, endGuards_keeps State.sc (fun _ _ => rfl) s.ticked.guardsOver s.latched]
  rfl

theorem countAll_channel (c : Channel) : s.countAll.channel c = (s.channel c).latchRoute := by
  unfold channel
  rw [countAll_cm, Assoc.find_mapValues]
  cases Assoc.find s.cm c <;> rfl

theorem countAll_slot (n : SlotNo) : s.countAll.slot n = (s.slot n).boundary := by
  unfold slot
  rw [countAll_sn]
  show (Assoc.find (Assoc.mapValues _ _) n).getD _ = _
  rw [Assoc.find_mapValues]
  cases Assoc.find s.sn.slots n <;> rfl

theorem ticked_slot (n : SlotNo) : s.ticked.slot n = (s.slot n).boundary := by
  show (Assoc.find (Assoc.mapValues _ s.sn.slots) n).getD _ = _
  rw [Assoc.find_mapValues]
  unfold slot
  cases Assoc.find s.sn.slots n <;> rfl

theorem countAll_context (k : CtxNo) : s.countAll.context k = (s.context k).map s.ticked.contextStep := by
  unfold context
  rw [countAll_cp]
  exact Assoc.find_mapValues _ _ _

end

/-! ## Rows that make a boundary -/

/-- A boundary row with nothing due and no frame being sent makes `runningBoundary` on the state with its timer, and then
sets the mark. -/
theorem exec_steady_boundary {i : Instr} {o : BoundaryOrder} {s : State} (h : s.steady) (hs : s.cl.sending = none)
    (hb : boundaryOf i s = some o) : ∃ τ f, Finish f ∧ exec i s = .next (f ((s.timerAt τ).runningBoundary o)) := by
  obtain ⟨τ, f, hf, hexec, -⟩ := exec_boundaryOf hb h.2.2
  exact ⟨τ, f, hf, by rw [hexec, boundary_steady h hs]⟩

/-- The rows one by one, with nothing due (R19 to R21). -/
theorem exec_fmark_boundary {time : Nat} {o o' : BoundaryOrder} {s : State} (hb : boundaryOf (.fmark time o') s = some o)
    (hd : s.due = []) : ∃ τ, exec (.fmark time o') s = .next (relock s.ft.mark ((s.timerAt τ).boundary o)) := by
  obtain ⟨τ, f, -, hexec, ⟨_, -, rfl⟩ | ⟨h, -⟩ | ⟨h, -⟩, -⟩ := exec_boundaryOf hb hd
  · exact ⟨τ, hexec⟩
  · cases h
  · cases h

theorem exec_holdoverEntry_boundary {o o' : BoundaryOrder} {s : State} (hb : boundaryOf (.holdoverEntry o') s = some o)
    (hd : s.due = []) : ∃ τ, exec (.holdoverEntry o') s = .next (loseMark ((s.timerAt τ).boundary o)) := by
  obtain ⟨τ, f, -, hexec, ⟨_, h, -⟩ | ⟨-, rfl⟩ | ⟨h, -⟩, -⟩ := exec_boundaryOf hb hd
  · cases h
  · exact ⟨τ, hexec⟩
  · cases h

theorem exec_holdoverBoundary_boundary {o o' : BoundaryOrder} {s : State}
    (hb : boundaryOf (.holdoverBoundary o') s = some o) (hd : s.due = []) :
    s.ft.mark = .holdover ∧ ∃ τ, exec (.holdoverBoundary o') s = .next ((s.timerAt τ).boundary o) := by
  obtain ⟨τ, f, -, hexec, ⟨_, h, -⟩ | ⟨h, -⟩ | ⟨-, hmark, rfl⟩, -⟩ := exec_boundaryOf hb hd
  · cases h
  · cases h
  · exact ⟨hmark, τ, hexec⟩

/-- What the row does after the boundary reaches the mark and the events only. -/
theorem finish_keeps {f : State → State} (hf : Finish f) {β : Type} (g : State → β)
    (hg : ∀ (u : State) x d, g { u with ft := x, du := d } = g u) (u : State) : g (f u) = g u := by
  rw [hf.eq u]
  exact hg _ _ _

/-- The due steps of a boundary (log 2), in their order. -/
theorem runningBoundary_due (s : State) (o : BoundaryOrder) : (s.runningBoundary o).due =
    cutsDue s.sn.schedules ++ followsDue s.sn.slots ++ s.guardsOver.map Due.guardEnd ++ (s.framed o).carryAll.due ++
      s.countAll.lossDue ++ (s.countAll.joinsOver ++ s.gapsOver ++ barsOver s.countAll.sn.slots) ++
      lateDue o.noticeFirst [.noticeOutstanding] ++ lateDue o.assignFirst [.contextAssign] ++
      (if s.pauseStep.2 = true then [Due.reinstatementRetry] else []) := rfl

theorem runningBoundary_rest (s : State) (o : BoundaryOrder) :
    { s.runningBoundary o with due := (s.framed o).carryAll.due } = (s.framed o).carryAll := rfl

end State

/-- Settles O14: outside RUNNING a boundary is a tick of the frame timer. -/
theorem boundaryOutsideRunningActsOnTheFrameTimerAlone : Obligations.BoundaryOutsideRunningActsOnTheFrameTimerAlone := by
  intro o s hpart hdue
  have htick (τ : Nat) : (s.timerAt τ).boundary o = { s with
      ft := { frameNumber := s.ft.frameNumber + 1, mark := s.ft.mark, timer := 0, boundarySeen := true } } :=
    if_neg hpart
  refine ⟨fun time hb hmark => ?_, fun time hb hmark => ?_, fun hb => ?_, fun hb => ?_⟩
  · obtain ⟨τ, hexec⟩ := State.exec_fmark_boundary hb hdue
    rw [hexec, htick, hmark]
    rfl
  · obtain ⟨τ, hexec⟩ := State.exec_fmark_boundary hb hdue
    rw [hexec, htick, hmark]
    exact congrArg Host.Outcome.next (raise_eq _ _ _)
  · obtain ⟨τ, hexec⟩ := State.exec_holdoverEntry_boundary hb hdue
    rw [hexec, htick]
    exact congrArg Host.Outcome.next (raise_eq _ _ _)
  · obtain ⟨hmark, τ, hexec⟩ := State.exec_holdoverBoundary_boundary hb hdue
    rw [hexec, htick, hmark]

end Sys2Proof.Machine
end

section
/-! SUPPORT. The early steps of a boundary (log 2): what the assignments, the carrier loss and SN's test each make of the
records, the contexts, the slots and the notices. -/

namespace Sys2Proof

namespace Assoc

/-- A number found passes the test. -/
theorem lowest_passes {p : Nat → Bool} {n m : Nat} : ∀ {fuel : Nat}, lowest p n fuel = some m → p m = true := by
  intro fuel
  induction fuel with
  | zero => exact nofun
  | succ fuel ih =>
    intro h
    unfold lowest at h
    split at h
    next hp => exact Option.some.inj h ▸ hp
    next => exact ih h

end Assoc

namespace Machine

theorem State.context_of_lowestFree {s : State} {k : CtxNo} (h : s.lowestFreeContext = some k) : s.context k = none := by
  obtain ⟨m, hm, rfl⟩ := Option.map_eq_some_iff.mp h
  exact Option.isNone_iff_eq_none.mp (Assoc.lowest_passes hm)

theorem State.state_of_lowestFree {s : State} {n : SlotNo} (h : s.lowestFreeSlot = some n) : (s.slot n).state = .free := by
  obtain ⟨m, hm, rfl⟩ := Option.map_eq_some_iff.mp h
  exact of_decide_eq_true (Assoc.lowest_passes hm)

/-! ## The assignments (R30, R50) -/

/-- A record after the assignments: the one it was, or that of an ENROLLED or FALLEN channel with a context. -/
inductive ChannelRecord.Assigned (free : CtxNo → Prop) (r : ChannelRecord) : ChannelRecord → Prop
  | kept : Assigned free r r
  | joins (k : CtxNo) (hfree : free k) (h : r.phase = .enrolled) :
    Assigned free r { r.moved .joining .pass .pass .none with context := some k }
  | watches (k : CtxNo) (hfree : free k) (h : r.phase = .fallen) :
    Assigned free r { r.moved .shadow .pass .pass .shadow with context := some k, lag := 0 }

/-- What the assignments leave from one state to another. -/
structure Assigned (s t : State) : Prop where
  rest : { t with cm := s.cm, cp := s.cp, sn := { t.sn with queue := s.sn.queue } } = s
  record : ∀ c, (s.channel c).Assigned (fun k => s.context k = none) (t.channel c)
  contexts : ∀ k x, s.context k = some x → t.context k = some x
  requests : ∃ l, t.sn.queue = s.sn.queue ++ l ∧ ∀ r ∈ l, r.kind = .join ∧ (s.channel r.channel).phase = .enrolled

namespace ChannelRecord.Assigned

variable {free : CtxNo → Prop} {r r' : ChannelRecord}

theorem eq_of_phase (h : r.Assigned free r') (henrolled : r.phase ≠ .enrolled) (hfallen : r.phase ≠ .fallen) : r' = r := by
  cases h with
  | kept => rfl
  | joins k _ hphase => exact absurd hphase henrolled
  | watches k _ hphase => exact absurd hphase hfallen

theorem phase_of_enrolled (h : r.Assigned free r') (hphase : r'.phase = .enrolled) : r.phase = .enrolled := by
  cases h with
  | kept => exact hphase
  | joins => cases hphase
  | watches => cases hphase

theorem active_eq (h : r.Assigned free r') : r'.active = r.active := by cases h <;> rfl

theorem slot_eq (h : r.Assigned free r') : r'.slot = r.slot := by cases h <;> rfl

theorem idle_eq (h : r.Assigned free r') : r'.idle = r.idle := by cases h <;> rfl

theorem label_eq (h : r.Assigned free r') : r'.label = r.label := by cases h <;> rfl

theorem collapsed_eq (h : r.Assigned free r') : r'.collapsed = r.collapsed := by cases h <;> rfl

/-- A context of the record afterwards is the one it held, or was free. -/
theorem context_of_some {k : CtxNo} (h : r.Assigned free r') (hk : r'.context = some k) :
    r' = r ∨ free k ∧ (r'.phase = .joining ∨ r'.phase = .shadow) := by
  cases h with
  | kept => exact .inl rfl
  | joins j hfree =>
    cases hk
    exact .inr ⟨hfree, .inl rfl⟩
  | watches j hfree =>
    cases hk
    exact .inr ⟨hfree, .inr rfl⟩

end ChannelRecord.Assigned

namespace Assigned

variable {s t u : State}

theorem refl (s : State) : Assigned s s :=
  ⟨rfl, fun _ => .kept, fun _ _ h => h, [], (List.append_nil _).symm, fun _ h => absurd h List.not_mem_nil⟩

theorem trans (h : Assigned s t) (h' : Assigned t u) : Assigned s u := by
  obtain ⟨l, hl, hjoins⟩ := h.requests
  obtain ⟨l', hl', hjoins'⟩ := h'.requests
  have hfree {k : CtxNo} (hk : t.context k = none) : s.context k = none :=
    Option.eq_none_iff_forall_ne_some.mpr fun x hx => Option.some_ne_none _ ((h.contexts k x hx).symm.trans hk)
  refine ⟨?_, fun c => ?_, fun k x hx => h'.contexts k x (h.contexts k x hx), l ++ l', ?_, fun r hr => ?_⟩
  · exact (congrArg (fun v : State => { v with cm := s.cm, cp := s.cp, sn := { v.sn with queue := s.sn.queue } }) h'.rest).trans
      h.rest
  · have hfirst := h.record c
    have hsecond := h'.record c
    generalize s.channel c = r at hfirst ⊢
    generalize t.channel c = r' at hfirst hsecond
    cases hfirst with
    | kept =>
      generalize u.channel c = r'' at hsecond ⊢
      cases hsecond with
      | kept => exact .kept
      | joins k hk hphase => exact .joins k (hfree hk) hphase
      | watches k hk hphase => exact .watches k (hfree hk) hphase
    | joins k hk hphase =>
      rw [hsecond.eq_of_phase Phase.noConfusion Phase.noConfusion]
      exact .joins k hk hphase
    | watches k hk hphase =>
      rw [hsecond.eq_of_phase Phase.noConfusion Phase.noConfusion]
      exact .watches k hk hphase
  · rw [hl', hl, List.append_assoc]
  · obtain hr | hr := List.mem_append.mp hr
    · exact hjoins r hr
    · exact ⟨(hjoins' r hr).1, (h.record _).phase_of_enrolled (hjoins' r hr).2⟩

/-- One claim, on the state whose context is filled. -/
theorem of_claim {c : Channel} {k : CtxNo} {x : Context} {rest : List Channel} {r : ChannelRecord} {l : List Request}
    (hfree : s.context k = none) (ht : t = { s with
      cm := Assoc.put s.cm c r
      cp := ⟨Assoc.put s.cp.contexts k x, rest⟩
      sn := { s.sn with queue := s.sn.queue ++ l } })
    (hr : (s.channel c).Assigned (fun k => s.context k = none) r)
    (hl : ∀ r ∈ l, r.kind = .join ∧ (s.channel r.channel).phase = .enrolled) : Assigned s t := by
  have hcm : t.cm = Assoc.put s.cm c r := congrArg State.cm ht
  subst ht
  refine ⟨rfl, fun d => ?_, fun j y hj => ?_, l, rfl, hl⟩
  · by_cases hd : d = c
    · rw [hd, State.channel_put hcm]
      exact hr
    · rw [State.keepsOtherChannels_put hcm d hd]
      exact .kept
  · refine (Assoc.find_put_other _ _ fun e => ?_).trans hj
    subst e
    exact Option.some_ne_none _ (hj.symm.trans hfree)

theorem assignHead (h : s.assignHead = some t) : Assigned s t := by
  unfold State.assignHead at h
  split at h
  next c rest k hqueue hlowest =>
    have hfree := State.context_of_lowestFree hlowest
    let v : State := State.setContext { s with cp := { s.cp with queue := rest } } k (Context.fresh c)
    have ht : t = (v.claimAssign c k).getD (v.freeContext k) := (Option.some.inj h).symm
    by_cases henrolled : (s.channel c).phase = .enrolled
    · rw [State.claimAssign_enrolled (s := v) k henrolled] at ht
      refine of_claim (x := Context.fresh c) (rest := rest) (l := if s.cl.role = some .lead then [⟨.join, c⟩] else []) hfree (ht.trans (c := _) ?_)
        (.joins k hfree henrolled) fun r hr => ?_
      · by_cases hrole : s.cl.role = some .lead
        · simp only [v, State.setContext, Option.getD_some, if_pos hrole]
          rfl
        · simp only [v, State.setContext, Option.getD_some, if_neg hrole, List.append_nil]
          rfl
      · split at hr
        · rw [List.mem_singleton.mp hr]
          exact ⟨rfl, henrolled⟩
        · exact absurd hr List.not_mem_nil
    by_cases hfallen : (s.channel c).phase = .fallen
    · rw [State.claimAssign_fallen (s := v) k hfallen] at ht
      refine of_claim (x := Context.fresh c) (rest := rest) (l := []) hfree (ht.trans ?_) (.watches k hfree hfallen) fun r hr => absurd hr List.not_mem_nil
      rw [List.append_nil]
      rfl
    · rw [State.claimAssign_stale (s := v) k henrolled hfallen] at ht
      subst ht
      refine ⟨rfl, fun _ => .kept, fun j y hj => ?_, [], (List.append_nil _).symm, fun _ hr => absurd hr List.not_mem_nil⟩
      have hne : j ≠ k := fun e => Option.some_ne_none _ (hj.symm.trans (e ▸ hfree))
      exact ((State.context_freeContext_other v hne).trans (Assoc.find_put_other _ _ hne)).trans hj
  next => cases h

theorem assignUpTo (n : Nat) : ∀ s : State, Assigned s (State.assignUpTo n s) := by
  induction n with
  | zero => exact refl
  | succ n ih =>
    intro s
    unfold State.assignUpTo
    cases h : s.assignHead with
    | none => exact refl s
    | some t => exact (assignHead h).trans (ih t)

/-- CONTEXT_ASSIGN, where a boundary takes it first (R50). -/
theorem assignContexts (b : Bool) (s : State) : Assigned s (State.early b State.assignContexts s) := by
  unfold State.early
  split
  · exact assignUpTo _ s
  · exact refl s

theorem channel_eq (h : Assigned s t) {c : Channel} (henrolled : (s.channel c).phase ≠ .enrolled)
    (hfallen : (s.channel c).phase ≠ .fallen) : t.channel c = s.channel c := (h.record c).eq_of_phase henrolled hfallen

theorem keeps {β : Type} (h : Assigned s t) (g : State → β)
    (hg : ∀ (u : State) m p q, g { u with cm := m, cp := p, sn := { u.sn with queue := q } } = g u) : g t = g s :=
  (hg t s.cm s.cp s.sn.queue).symm.trans (congrArg g h.rest)

theorem slot_eq (h : Assigned s t) (n : SlotNo) : t.slot n = s.slot n := h.keeps (fun u => u.slot n) fun _ _ _ _ => rfl

end Assigned

end Machine
end Sys2Proof
end

section
/-! SUPPORT. The carrier loss that a boundary takes first (R40, R81, R107), whatever the order of the channel map. -/

namespace Sys2Proof.Machine

theorem ChannelRecord.lost_lost (r : ChannelRecord) : r.lost.lost = r.lost := by
  obtain ⟨phase⟩ := r
  cases phase <;> rfl

theorem ChannelRecord.lost_slot (r : ChannelRecord) : r.lost.slot = r.slot := by
  obtain ⟨phase⟩ := r
  cases phase <;> rfl

theorem ChannelRecord.lost_idle (r : ChannelRecord) : r.lost.idle = r.idle := by
  obtain ⟨phase⟩ := r
  cases phase <;> rfl

theorem ChannelRecord.lost_label (r : ChannelRecord) : r.lost.label = r.label := by
  obtain ⟨phase⟩ := r
  cases phase <;> rfl

theorem ChannelRecord.lost_active (r : ChannelRecord) : r.lost.active = r.active := by
  obtain ⟨phase⟩ := r
  cases phase <;> rfl

theorem ChannelRecord.lost_of_phase {r : ChannelRecord} (h : r.phase ∉ [.proven, .cutting, .carried, .retired]) :
    r.lost = r := by
  obtain ⟨phase⟩ := r
  revert h
  cases phase
  case proven | cutting | carried | retired => exact fun h => absurd (by simp) h
  all_goals exact fun _ => rfl

theorem ChannelRecord.lost_joining {r : ChannelRecord} : r.lost.phase = .joining ↔ r.phase = .joining := by
  obtain ⟨phase⟩ := r
  cases phase <;> simp [lost, moved]

/-- No channel is CARRIED after the carrier loss. -/
theorem ChannelRecord.lost_not_carried (r : ChannelRecord) : r.lost.phase ≠ .carried := by
  obtain ⟨phase⟩ := r
  cases phase <;> exact Phase.noConfusion

theorem Context.lostIn_some {x y : Context} {p : Phase} (h : x.lostIn p = some y) : y = x ∨ y = x.restart := by
  revert h
  cases p
  case shadow | proven | cutting => exact fun h => .inr (Option.some.inj h).symm
  case carried => exact nofun
  all_goals exact fun h => .inl (Option.some.inj h).symm

theorem Context.lostIn_isSome {x : Context} {p : Phase} (h : p ≠ .carried) : ∃ y, x.lostIn p = some y := by
  revert h
  cases p
  case carried => exact fun h => absurd rfl h
  all_goals exact fun _ => ⟨_, rfl⟩

/-- Requests of which those that a test refuses, CUTs all of them, are withdrawn. -/
structure CutsWithdrawn (p : Request → Bool) (s t : State) : Prop where
  others : ∀ r, r.kind ≠ .cut → p r = true
  queue : t.sn.queue = s.sn.queue.filter p
  outstanding : t.sn.outstanding = s.sn.outstanding.filter fun o => p ⟨o.kind, o.channel⟩

namespace State

theorem find_contextsChanged_none {s : State} {k : CtxNo} (c : Channel) (f : Context → Context) (h : s.context k = none) :
    Assoc.find (s.contextsChanged c f) k = none := by
  by_cases hk : some k = (s.channel c).context
  · unfold contextsChanged
    rw [← hk]
    dsimp only
    rw [h]
    exact h
  · rw [context_contextsChanged_other f hk, h]

theorem find_contextsWithout_none {s : State} {k : CtxNo} (c : Channel) (h : s.context k = none) :
    Assoc.find (s.contextsWithout c) k = none := by
  have hfreed := contextFreed_contextsWithout (s := s) (c := c)
    (t := { s with cp := { s.cp with contexts := s.contextsWithout c } }) rfl
  by_cases hk : (s.channel c).context = some k
  · exact hfreed.1 k hk
  · exact (hfreed.2 k (Ne.symm hk)).trans h

theorem loseCarrier_context_none {s : State} {k : CtxNo} (c : Channel) (h : s.context k = none) :
    (s.loseCarrier c).context k = none := by
  unfold loseCarrier
  split
  · rw [modContextOf_eq]
    exact find_contextsChanged_none c _ h
  · rw [modContextOf_eq]
    exact find_contextsChanged_none c _ h
  · rw [dropCut_eq, modContextOf_eq]
    exact find_contextsChanged_none c _ h
  · rw [handBack_eq_contextsWithout]
    exact find_contextsWithout_none c h
  · exact h
  · exact h

theorem loseCarrier_context_some {s : State} {c : Channel} {k : CtxNo} {y : Context}
    (h : (s.loseCarrier c).context k = some y) : ∃ x, s.context k = some x ∧ (y = x ∨ y = x.restart) := by
  cases hx : s.context k with
  | none => exact absurd h (by rw [loseCarrier_context_none c hx]; exact nofun)
  | some x =>
    refine ⟨x, rfl, ?_⟩
    by_cases hk : (s.channel c).context = some k
    · exact Context.lostIn_some (((loseCarrier_spec s c).context k x hk hx).symm.trans h)
    · exact .inl (Option.some.inj (h.symm.trans (((loseCarrier_spec s c).contexts k (Ne.symm hk)).trans hx)))

/-! ## Over a list of channels -/

section
variable {l : List Channel}

theorem loss_fold_lost {s : State} {c : Channel} (h : c ∈ l ∨ (s.channel c).lost = s.channel c) :
    (l.foldl loseCarrier s).channel c = (s.channel c).lost := by
  induction l generalizing s with
  | nil => exact (h.resolve_left List.not_mem_nil).symm
  | cons d l ih =>
    by_cases hd : c = d
    · subst hd
      have hlost := (loseCarrier_spec s c).record
      exact (ih (.inr (by rw [hlost, ChannelRecord.lost_lost]))).trans (by rw [hlost, ChannelRecord.lost_lost])
    · have hsame := (loseCarrier_spec s d).records c hd
      rw [List.foldl_cons, ih (by rw [hsame]; exact h.imp_left fun hc => (List.mem_cons.mp hc).resolve_left hd), hsame]

theorem loss_fold_context_some {s : State} {k : CtxNo} {y : Context} (h : (l.foldl loseCarrier s).context k = some y) :
    ∃ x, s.context k = some x ∧ (y = x ∨ y = x.restart) := by
  induction l generalizing s with
  | nil => exact ⟨y, h, .inl rfl⟩
  | cons d l ih =>
    obtain ⟨x', hx', hy⟩ := ih h
    obtain ⟨x, hx, hx''⟩ := loseCarrier_context_some hx'
    refine ⟨x, hx, ?_⟩
    obtain rfl | rfl := hx''
    · exact hy
    · exact .inr (hy.elim id fun h => h.trans rfl)

theorem loss_fold_schedule_none {s : State} {c : Channel} (h : Assoc.find s.sn.schedules c = none) :
    Assoc.find (l.foldl loseCarrier s).sn.schedules c = none := by
  induction l generalizing s with
  | nil => exact h
  | cons d l ih => exact ih (by rw [loseCarrier_schedules, h, ite_self])

theorem loss_fold_schedule_cutting {s : State} {c : Channel} (hc : c ∈ l) (h : (s.channel c).phase = .cutting) :
    Assoc.find (l.foldl loseCarrier s).sn.schedules c = none := by
  induction l generalizing s with
  | nil => cases hc
  | cons d l ih =>
    by_cases hd : c = d
    · subst hd
      exact loss_fold_schedule_none (s := s.loseCarrier c) (by rw [loseCarrier_schedules, if_pos (by simp [h])])
    · exact ih ((List.mem_cons.mp hc).resolve_left hd) (by rw [(loseCarrier_spec s d).records c hd]; exact h)

theorem loss_fold_schedule_eq {s : State} {c : Channel} (h : (s.channel c).phase ≠ .cutting) :
    Assoc.find (l.foldl loseCarrier s).sn.schedules c = Assoc.find s.sn.schedules c := by
  induction l generalizing s with
  | nil => rfl
  | cons d l ih =>
    have hstep : Assoc.find (s.loseCarrier d).sn.schedules c = Assoc.find s.sn.schedules c := by
      rw [loseCarrier_schedules, if_neg]
      simp only [Bool.and_eq_true, decide_eq_true_eq]
      rintro ⟨hd, rfl⟩
      exact h hd
    refine (ih ?_).trans hstep
    by_cases hd : c = d
    · subst hd
      rw [(loseCarrier_spec s c).record]
      generalize s.channel c = r at h
      obtain ⟨phase⟩ := r
      cases phase
      case cutting => exact absurd rfl h
      all_goals exact Phase.noConfusion
    · rw [(loseCarrier_spec s d).records c hd]
      exact h

/-- The requests that one claim of the carrier loss keeps. -/
def lossKeeps (s : State) (d : Channel) (r : Request) : Bool :=
  !(decide (r.kind = .cut) && (decide ((s.channel d).phase = .cutting) && decide (r.channel = d)))

theorem cutsWithdrawn_loseCarrier (s : State) (d : Channel) : CutsWithdrawn (s.lossKeeps d) s (s.loseCarrier d) :=
  ⟨fun r hr => by simp [lossKeeps, hr], loseCarrier_queue s d, loseCarrier_outstanding s d⟩

theorem cutsWithdrawn_trans {s t u : State} {p q : Request → Bool} (h : CutsWithdrawn p s t) (h' : CutsWithdrawn q t u) :
    CutsWithdrawn (fun r => q r && p r) s u := by
  refine ⟨fun r hr => by rw [h.others r hr, h'.others r hr]; rfl, ?_, ?_⟩
  · rw [h'.queue, h.queue, List.filter_filter]
  · rw [h'.outstanding, h.outstanding, Option.filter_filter]
    congr 1
    exact funext fun o => Bool.and_comm _ _

theorem loss_fold_withdrawn (s : State) (l : List Channel) : ∃ p, CutsWithdrawn p s (l.foldl loseCarrier s) ∧
    ∀ c ∈ l, (s.channel c).phase = .cutting → p ⟨.cut, c⟩ = false := by
  induction l generalizing s with
  | nil =>
    refine ⟨fun _ => true, ⟨fun _ _ => rfl, (List.filter_eq_self.mpr fun _ _ => rfl).symm, ?_⟩,
      fun _ h => absurd h List.not_mem_nil⟩
    show s.sn.outstanding = _
    cases s.sn.outstanding <;> rfl
  | cons d l ih =>
    obtain ⟨q, hq, hcuts⟩ := ih (s.loseCarrier d)
    refine ⟨_, cutsWithdrawn_trans (cutsWithdrawn_loseCarrier s d) hq, fun c hc hphase => ?_⟩
    by_cases hd : c = d
    · subst hd
      simp [lossKeeps, hphase]
    · have hsame := (loseCarrier_spec s d).records c hd
      simp [hcuts c ((List.mem_cons.mp hc).resolve_left hd) (by rw [hsame]; exact hphase)]

end

end State

/-- What a carrier loss leaves from one state to another (R40, R81, R107). -/
structure CarrierGone (s t : State) : Prop where
  rest : { t with cm := s.cm, cp := s.cp, cl := s.cl, sn := s.sn, du := s.du } = s
  link : t.cl = { s.cl with link := .dark, lossCount := 0, huntCount := 0, lastNumber := none }
  events : t.du = s.du.raised .linkDown 0
  record : ∀ c, t.channel c = (s.channel c).lost
  context : ∀ k y, t.context k = some y → ∃ x, s.context k = some x ∧ (y = x ∨ y = x.restart)
  kept : s.channelsInOrder → ∀ c k x, (s.channel c).context = some k → s.context k = some x →
    (∀ d, (s.channel d).context = some k → d = c) → t.context k = x.lostIn (s.channel c).phase
  requests : ∃ p, CutsWithdrawn p s t ∧ ∀ c, (s.channel c).phase = .cutting → p ⟨.cut, c⟩ = false
  schedules : ∀ c, Assoc.find t.sn.schedules c =
    if (s.channel c).phase = .cutting then none else Assoc.find s.sn.schedules c
  slots : ∀ n, t.slot n = (s.slot n).linkLost
  peer : t.sn.peer = none
  nextNumber : t.sn.nextNumber = s.sn.nextNumber

theorem carrierGone_takeLinkDown {s : State} (hlink : s.cl.link = .up) (hcount : 16 ≤ s.cl.lossCount) :
    CarrierGone s s.takeLinkDown := by
  let v : State := { s with
    cl := { s.cl with link := .dark, lossCount := 0, huntCount := 0, lastNumber := none }
    du := s.du.raised .linkDown 0 }
  let l := Assoc.keys s.cm
  let u : State := l.foldl State.loseCarrier v
  have htaken : s.takeLinkDown = u.noticesLinkLost := by
    refine (if_pos ⟨(linkIsUp_iff s).mpr hlink, hcount⟩).trans ?_
    rw [raise_eq]
    rfl
  have hrest := State.loss_fold_rest v l
  obtain ⟨hslots, -, hnumber⟩ := State.loss_fold_sn v l
  have hlisted {c : Channel} (h : (s.channel c).phase = .cutting) : c ∈ l :=
    State.listed_of_phase (by rw [h]; exact Phase.noConfusion)
  rw [htaken]
  refine ⟨?_, congrArg State.cl hrest, congrArg State.du hrest, fun c => ?_, fun k y hy => State.loss_fold_context_some (s := v) (l := l) hy,
    fun horder c k x hk hx hsingle => ?_, ?_, fun c => ?_, fun n => ?_, rfl, hnumber⟩
  · exact congrArg (fun w : State => { w with cm := s.cm, cp := s.cp, cl := s.cl, sn := s.sn, du := s.du }) hrest
  · refine State.loss_fold_lost (s := v) (l := l) ?_
    by_cases hc : c ∈ l
    · exact .inl hc
    · refine .inr ?_
      rw [State.channel_of_not_listed (s := v) hc]
      rfl
  · have hc : c ∈ l := by
      refine Classical.byContradiction fun hc => ?_
      rw [State.channel_of_not_listed hc] at hk
      exact Option.some_ne_none _ hk.symm
    exact State.loss_fold_context (s := v) (horder.imp fun h => Fin.ne_of_lt h) hc hk hx fun e _ => hsingle e
  · obtain ⟨p, hp, hcuts⟩ := State.loss_fold_withdrawn v l
    exact ⟨p, ⟨hp.others, hp.queue, hp.outstanding⟩, fun c hc => hcuts c (hlisted hc) hc⟩
  · by_cases hcutting : (s.channel c).phase = .cutting
    · rw [if_pos hcutting]
      exact State.loss_fold_schedule_cutting (s := v) (hlisted hcutting) hcutting
    · rw [if_neg hcutting]
      exact State.loss_fold_schedule_eq (s := v) hcutting
  · show (Assoc.find (Assoc.mapValues _ u.sn.slots) n).getD .reset = _
    rw [Assoc.find_mapValues, hslots]
    show _ = ((Assoc.find s.sn.slots n).getD .reset).linkLost
    cases Assoc.find s.sn.slots n <;> rfl

theorem State.takeLinkDown_eq_self {s : State} (h : ¬ (s.cl.link = .up ∧ 16 ≤ s.cl.lossCount)) : s.takeLinkDown = s :=
  if_neg fun ⟨hlink, hcount⟩ => h ⟨(linkIsUp_iff s).mp hlink, hcount⟩

end Sys2Proof.Machine
end

section
/-! SUPPORT. SN's test where a boundary takes it first (R91): what the heads it takes make of the records, the contexts and
the slots. -/

namespace Sys2Proof.Machine

/-- A record after SN's test: the one it was, or that of a JOINING channel with a slot, or back in ENROLLED. -/
inductive ChannelRecord.Noticed (r : ChannelRecord) : ChannelRecord → Prop
  | kept : Noticed r r
  | reserves (n : SlotNo) (h : r.phase = .joining) : Noticed r { r with slot := some n }
  | ends (h : r.phase = .joining) :
    Noticed r { r.moved .enrolled .pass .pass .none with slot := none, context := none, lag := 0 }

/-- What SN's test leaves from one state to another. -/
structure NoticeTaken (s t : State) : Prop where
  rest : { t with
    cm := s.cm
    cp := s.cp
    sn := { t.sn with
      slots := s.sn.slots, queue := s.sn.queue, outstanding := s.sn.outstanding, nextNumber := s.sn.nextNumber }
    du := s.du } = s
  record : ∀ c, (s.channel c).Noticed (t.channel c)
  named : ∀ c, ⟨.join, c⟩ ∉ s.sn.queue → t.channel c = s.channel c
  context : ∀ k, t.context k = s.context k ∨
    t.context k = none ∧ ∃ c, (s.channel c).phase = .joining ∧ (s.channel c).context = some k
  arrivals : ∀ n, (t.slot n).visible = (s.slot n).visible ∧ (t.slot n).latch = (s.slot n).latch
  queue : ∀ r ∈ t.sn.queue, r ∈ s.sn.queue

namespace ChannelRecord.Noticed

variable {r r' : ChannelRecord}

theorem eq_of_phase (h : r.Noticed r') (hphase : r.phase ≠ .joining) : r' = r := by
  cases h with
  | kept => rfl
  | reserves n h => exact absurd h hphase
  | ends h => exact absurd h hphase

theorem active_eq (h : r.Noticed r') : r'.active = r.active := by cases h <;> rfl

theorem idle_eq (h : r.Noticed r') : r'.idle = r.idle := by cases h <;> rfl

theorem joining_of_joining (h : r.Noticed r') (hphase : r'.phase = .joining) : r.phase = .joining := by
  cases h with
  | kept => exact hphase
  | reserves n h => exact h
  | ends h => exact h

theorem context_of_joining (h : r.Noticed r') (hphase : r'.phase = .joining) : r'.context = r.context := by
  cases h with
  | kept => rfl
  | reserves n h => rfl
  | ends h => cases hphase

theorem trans {r'' : ChannelRecord} (h : r.Noticed r') (h' : r'.Noticed r'') : r.Noticed r'' := by
  cases h with
  | kept => exact h'
  | reserves n h =>
    cases h' with
    | kept => exact .reserves n h
    | reserves m => exact .reserves m h
    | ends => exact .ends h
  | ends h =>
    rw [h'.eq_of_phase Phase.noConfusion]
    exact .ends h

end ChannelRecord.Noticed

/-- The slot entry that a release, or a reservation, or a LEAVE makes keeps its arrivals. -/
theorem SlotEntry.arrivals_kept (e : SlotEntry) (st : SlotState) (c : Channel) :
    ((e.given st c).visible = e.visible ∧ (e.given st c).latch = e.latch) ∧
    (e.freed.visible = e.visible ∧ e.freed.latch = e.latch) ∧
    (e.releasing.visible = e.visible ∧ e.releasing.latch = e.latch) :=
  ⟨⟨rfl, rfl⟩, ⟨rfl, rfl⟩, rfl, rfl⟩

namespace State

theorem slot_put_cases {s t : State} {n : SlotNo} {e : SlotEntry} {P : SlotNo → SlotEntry → Prop}
    (h : t.sn.slots = Assoc.put s.sn.slots n e) (hn : P n e) (hother : ∀ m, m ≠ n → P m (s.slot m)) (m : SlotNo) :
    P m (t.slot m) := by
  by_cases hm : m = n
  · rw [hm, slot_put h]
    exact hn
  · rw [keepsOtherSlots_put h m fun e => hm (Option.some.inj e)]
    exact hother m hm

theorem channel_put_cases {s t : State} {c : Channel} {r : ChannelRecord} {P : Channel → ChannelRecord → Prop}
    (h : t.cm = Assoc.put s.cm c r) (hc : P c r) (hother : ∀ d, d ≠ c → P d (s.channel d)) (d : Channel) :
    P d (t.channel d) := by
  by_cases hd : d = c
  · rw [hd, channel_put h]
    exact hc
  · rw [keepsOtherChannels_put h d hd]
    exact hother d hd

theorem slot_slotsWithout_arrivals {s t : State} {c : Channel} (h : t.sn.slots = s.slotsWithout c) (n : SlotNo) :
    (t.slot n).visible = (s.slot n).visible ∧ (t.slot n).latch = (s.slot n).latch := by
  obtain ⟨hfreed, hother⟩ := slotFreed_slotsWithout h
  by_cases hn : (s.channel c).slot = some n
  · rw [hfreed n hn]
    exact ⟨rfl, rfl⟩
  · rw [hother n (Ne.symm hn)]
    exact ⟨rfl, rfl⟩

end State

namespace NoticeTaken

variable {s t u : State}

theorem refl (s : State) : NoticeTaken s s :=
  ⟨rfl, fun _ => .kept, fun _ _ => rfl, fun _ => .inl rfl, fun _ => ⟨rfl, rfl⟩, fun _ h => h⟩

theorem trans (h : NoticeTaken s t) (h' : NoticeTaken t u) : NoticeTaken s u := by
  refine ⟨?_, fun c => (h.record c).trans (h'.record c), fun c hc => ?_, fun k => ?_, fun n => ?_,
    fun r hr => h.queue r (h'.queue r hr)⟩
  · exact (congrArg (fun v : State => { v with
      cm := s.cm
      cp := s.cp
      sn := { v.sn with
        slots := s.sn.slots, queue := s.sn.queue, outstanding := s.sn.outstanding, nextNumber := s.sn.nextNumber }
      du := s.du }) h'.rest).trans h.rest
  · exact (h'.named c fun hr => hc (h.queue _ hr)).trans (h.named c hc)
  · obtain hsecond | ⟨hnone, c, hphase, hk⟩ := h'.context k
    · rw [hsecond]
      exact h.context k
    · exact .inr ⟨hnone, c, (h.record c).joining_of_joining hphase,
        ((h.record c).context_of_joining hphase).symm.trans hk⟩
  · exact ⟨(h'.arrivals n).1.trans (h.arrivals n).1, (h'.arrivals n).2.trans (h.arrivals n).2⟩

/-- A head off the queue, and nothing else. -/
theorem drop_head {r : Request} {rest : List Request} (h : s.sn.queue = r :: rest) :
    NoticeTaken s { s with sn := { s.sn with queue := rest } } :=
  ⟨rfl, fun _ => .kept, fun _ _ => rfl, fun _ => .inl rfl, fun _ => ⟨rfl, rfl⟩,
    fun _ hx => h ▸ List.mem_cons_of_mem r hx⟩

theorem endJoin {c : Channel} {k : EventKind} {rest : List Request} (h : s.sn.queue = ⟨.join, c⟩ :: rest)
    (hphase : (s.channel c).phase = .joining) :
    NoticeTaken s (State.endJoin { s with sn := { s.sn with queue := rest } } c k) := by
  let v : State := { s with sn := { s.sn with queue := rest } }
  rw [State.endJoin_eq]
  refine ⟨rfl, fun d => ?_, fun d hd => ?_, fun j => ?_, fun n => State.slot_slotsWithout_arrivals (s := v) (c := c) rfl n,
    fun x hx => ?_⟩
  · exact State.channel_put_cases (s := s) (P := fun d r => (s.channel d).Noticed r) rfl (.ends hphase) (fun _ _ => .kept) d
  · refine State.keepsOtherChannels_put (s := s) rfl d fun e => hd ?_
    rw [h, e]
    exact List.mem_cons_self
  · obtain ⟨hfreed, hother⟩ := State.contextFreed_contextsWithout (s := v) (c := c)
      (t := { v with cp := { v.cp with contexts := v.contextsWithout c } }) rfl
    by_cases hj : (s.channel c).context = some j
    · exact .inr ⟨hfreed j hj, c, hphase, hj⟩
    · exact .inl (hother j (Ne.symm hj))
  · rw [h]
    exact List.mem_cons_of_mem _ (List.mem_filter.mp hx).1

theorem placeHead {r : Request} {rest : List Request} (h : s.sn.queue = r :: rest) :
    NoticeTaken s (State.placeHead { s with sn := { s.sn with queue := rest } } r) := by
  let v : State := { s with sn := { s.sn with queue := rest } }
  have hdrop : NoticeTaken s v := drop_head h
  have hmem (x : Request) (hx : x ∈ rest) : x ∈ s.sn.queue := by
    rw [h]
    exact List.mem_cons_of_mem r hx
  obtain ⟨k, c⟩ := r
  cases k with
  | join =>
    by_cases hphase : (s.channel c).phase = .joining
    · cases hslot : v.lowestFreeSlot with
      | none =>
        rw [State.placeHead_join_fails (s := v) hphase hslot]
        exact endJoin h hphase
      | some n =>
        rw [State.placeHead_join (s := v) hphase hslot]
        refine ⟨rfl, fun d => ?_, fun d hd => ?_, fun _ => .inl rfl, fun m => ?_, hmem⟩
        · exact State.channel_put_cases (s := s) (P := fun d r => (s.channel d).Noticed r) rfl (.reserves n hphase)
            (fun _ _ => .kept) d
        · refine State.keepsOtherChannels_put (s := s) rfl d fun e => hd ?_
          rw [h, e]
          exact List.mem_cons_self
        · exact State.slot_put_cases (s := s) (e := (s.slot n).given .reserved c) (P := fun m e => e.visible = (s.slot m).visible ∧ e.latch = (s.slot m).latch)
            rfl ⟨rfl, rfl⟩ (fun _ _ => ⟨rfl, rfl⟩) m
    · rw [State.placeHead_join_stale (s := v) hphase]
      exact hdrop
  | cut =>
    cases hslot : (s.channel c).slot with
    | none =>
      rw [State.placeHead_of_no_slot (s := v) (by decide) hslot]
      exact hdrop
    | some n =>
      rw [State.placeHead_cut (s := v) hslot]
      exact ⟨rfl, fun _ => .kept, fun _ _ => rfl, fun _ => .inl rfl, fun _ => ⟨rfl, rfl⟩, hmem⟩
  | leave =>
    cases hslot : (s.channel c).slot with
    | none =>
      rw [State.placeHead_of_no_slot (s := v) (by decide) hslot]
      exact hdrop
    | some n =>
      rw [State.placeHead_leave (s := v) hslot]
      refine ⟨rfl, fun _ => .kept, fun _ _ => rfl, fun _ => .inl rfl, fun m => ?_, hmem⟩
      exact State.slot_put_cases (s := s) (e := (s.slot n).releasing) (P := fun m e => e.visible = (s.slot m).visible ∧ e.latch = (s.slot m).latch)
        rfl ⟨rfl, rfl⟩ (fun _ _ => ⟨rfl, rfl⟩) m

theorem placeUpTo (n : Nat) : ∀ s : State, NoticeTaken s (State.placeUpTo n s) := by
  induction n with
  | zero => exact refl
  | succ n ih =>
    intro s
    by_cases hout : s.sn.outstanding = none
    · cases hqueue : s.sn.queue with
      | nil =>
        rw [State.placeUpTo_of_empty _ hqueue]
        exact refl s
      | cons r rest =>
        rw [State.placeUpTo_cons n hout hqueue]
        exact (placeHead hqueue).trans (ih _)
    · rw [State.placeUpTo_of_outstanding _ hout]
      exact refl s

/-- NOTICE_OUTSTANDING, where a boundary takes it first (R91). -/
theorem makeOutstanding (b : Bool) (s : State) : NoticeTaken s (State.early b State.makeOutstanding s) := by
  unfold State.early
  split
  · exact placeUpTo _ s
  · exact refl s

theorem channel_eq (h : NoticeTaken s t) {c : Channel} (hphase : (s.channel c).phase ≠ .joining) :
    t.channel c = s.channel c := (h.record c).eq_of_phase hphase

theorem keeps {β : Type} (h : NoticeTaken s t) (g : State → β)
    (hg : ∀ (u : State) m p a b c d e, g { u with
      cm := m, cp := p, sn := { u.sn with slots := a, queue := b, outstanding := c, nextNumber := d }, du := e } = g u) :
    g t = g s :=
  (hg t s.cm s.cp s.sn.slots s.sn.queue s.sn.outstanding s.sn.nextNumber s.du).symm.trans (congrArg g h.rest)

end NoticeTaken

/-! ## The slots in use -/

/-- No JOINING channel has a slot, and the slot of any other channel is in use: so it is, where the blocks agree, while no
notice is outstanding. -/
structure State.Tidy (s : State) : Prop where
  joining : ∀ c, (s.channel c).phase = .joining → (s.channel c).slot = none
  inUse : ∀ c n, (s.channel c).slot = some n → (s.slot n).inUse = true

/-- The slots in use stay so, with their hold counts, and the BARRED ones stay as they are. -/
def slotsSettled (s t : State) : Prop := ∀ n,
  ((s.slot n).inUse = true → (t.slot n).inUse = true ∧ (t.slot n).holdCount = (s.slot n).holdCount) ∧
  ((s.slot n).state = .barred → t.slot n = s.slot n)

theorem slotsSettled_of_eq {s t : State} (h : t.sn.slots = s.sn.slots) : slotsSettled s t := fun n => by
  rw [State.slot_of_slots h n]
  exact ⟨fun hu => ⟨hu, rfl⟩, fun _ => rfl⟩

namespace State.Tidy

variable {s : State}

/-- The state with a head off its queue. -/
theorem drop_head (h : s.Tidy) (rest : List Request) : State.Tidy { s with sn := { s.sn with queue := rest } } :=
  ⟨h.joining, h.inUse⟩

/-- One head: the slots settle, and either a notice is outstanding or the state is tidy still. -/
theorem placeHead (h : s.Tidy) (r : Request) : slotsSettled s (s.placeHead r) ∧
    ((s.placeHead r).sn.outstanding ≠ none ∨ (s.placeHead r).Tidy) := by
  obtain ⟨k, c⟩ := r
  cases k with
  | join =>
    by_cases hphase : (s.channel c).phase = .joining
    · cases hslot : s.lowestFreeSlot with
      | none =>
        have hnone := h.joining c hphase
        rw [State.placeHead_join_fails hphase hslot, State.endJoin_eq]
        have hslots : s.slotsWithout c = s.sn.slots := by
          unfold State.slotsWithout
          rw [hnone]
        refine ⟨slotsSettled_of_eq hslots, .inr ⟨fun d => ?_, fun d n => ?_⟩⟩
        · exact State.channel_put_cases (s := s) (P := fun _ r => r.phase = .joining → r.slot = none) rfl (fun _ => rfl)
            (fun d _ => h.joining d) d
        · refine State.channel_put_cases (s := s) (P := fun _ r => r.slot = some n → _) rfl nofun (fun d _ hn => ?_) d
          show ((Assoc.find (s.slotsWithout c) n).getD .reset).inUse = true
          rw [hslots]
          exact h.inUse d n hn
      | some n =>
        have hfree := State.state_of_lowestFree hslot
        rw [State.placeHead_join hphase hslot]
        refine ⟨fun m => ?_, .inl (Option.some_ne_none _)⟩
        refine State.slot_put_cases (s := s) (P := fun m e => ((s.slot m).inUse = true → e.inUse = true ∧
          e.holdCount = (s.slot m).holdCount) ∧ ((s.slot m).state = .barred → e = s.slot m)) rfl ⟨fun hu => ?_, fun hb => ?_⟩
          (fun _ _ => ⟨fun hu => ⟨hu, rfl⟩, fun _ => rfl⟩) m
        · exact absurd hfree ((SlotEntry.inUse_iff _).mp hu).1
        · rw [hfree] at hb
          cases hb
    · rw [State.placeHead_join_stale hphase]
      exact ⟨slotsSettled_of_eq rfl, .inr h⟩
  | cut =>
    cases hslot : (s.channel c).slot with
    | none =>
      rw [State.placeHead_of_no_slot (by decide) hslot]
      exact ⟨slotsSettled_of_eq rfl, .inr h⟩
    | some n =>
      rw [State.placeHead_cut hslot]
      exact ⟨slotsSettled_of_eq rfl, .inl (Option.some_ne_none _)⟩
  | leave =>
    cases hslot : (s.channel c).slot with
    | none =>
      rw [State.placeHead_of_no_slot (by decide) hslot]
      exact ⟨slotsSettled_of_eq rfl, .inr h⟩
    | some n =>
      have hn := h.inUse c n hslot
      rw [State.placeHead_leave hslot]
      refine ⟨fun m => ?_, .inl (Option.some_ne_none _)⟩
      refine State.slot_put_cases (s := s) (e := (s.slot n).releasing) (P := fun m e => ((s.slot m).inUse = true →
        e.inUse = true ∧ e.holdCount = (s.slot m).holdCount) ∧ ((s.slot m).state = .barred → e = s.slot m)) rfl
        ⟨fun _ => ⟨rfl, rfl⟩, fun hb => ?_⟩ (fun _ _ => ⟨fun hu => ⟨hu, rfl⟩, fun _ => rfl⟩) m
      exact absurd hb ((SlotEntry.inUse_iff _).mp hn).2

end State.Tidy

theorem slotsSettled.trans {s t u : State} (h : slotsSettled s t) (h' : slotsSettled t u) : slotsSettled s u := fun n => by
  refine ⟨fun hu => ?_, fun hb => ?_⟩
  · obtain ⟨hused, hhold⟩ := (h n).1 hu
    obtain ⟨hused', hhold'⟩ := (h' n).1 hused
    exact ⟨hused', hhold'.trans hhold⟩
  · have hfirst := (h n).2 hb
    exact ((h' n).2 (hfirst ▸ hb)).trans hfirst

theorem slotsSettled_placeUpTo (n : Nat) : ∀ s : State, s.sn.outstanding ≠ none ∨ s.Tidy →
    slotsSettled s (State.placeUpTo n s) := by
  induction n with
  | zero => exact fun s _ => slotsSettled_of_eq rfl
  | succ n ih =>
    intro s h
    by_cases hout : s.sn.outstanding = none
    · have htidy := h.resolve_left fun hne => hne hout
      cases hqueue : s.sn.queue with
      | nil =>
        rw [State.placeUpTo_of_empty _ hqueue]
        exact slotsSettled_of_eq rfl
      | cons r rest =>
        rw [State.placeUpTo_cons n hout hqueue]
        obtain ⟨hsettled, hnext⟩ := (htidy.drop_head rest).placeHead r
        exact slotsSettled.trans (t := State.placeHead { s with sn := { s.sn with queue := rest } } r) hsettled (ih _ hnext)
    · rw [State.placeUpTo_of_outstanding _ hout]
      exact slotsSettled_of_eq rfl

theorem slotsSettled_makeOutstanding (b : Bool) {s : State} (h : b = false ∨ s.sn.outstanding ≠ none ∨ s.Tidy) :
    slotsSettled s (State.early b State.makeOutstanding s) := by
  unfold State.early
  split
  next hb => exact slotsSettled_placeUpTo _ s (h.resolve_left fun e => Bool.noConfusion (hb.symm.trans e))
  next => exact slotsSettled_of_eq rfl

end Sys2Proof.Machine
end

section
/-! SUPPORT. A boundary stage by stage: the counts, the early steps of its order, the frame and the fibre words; and the loss
count (R76, R80, R81). -/

namespace Sys2Proof.Machine

namespace State

/-- The state of a boundary with its counts stepped and the assignments that its order takes first. -/
def afterAssign (s : State) (o : BoundaryOrder) : State := early o.assignFirst assignContexts s.countAll

/-- The same with the carrier loss that its order takes first. -/
def afterLoss (s : State) (o : BoundaryOrder) : State := early o.lossFirst takeLinkDown (s.afterAssign o)

section
variable (s : State) (o : BoundaryOrder)

theorem assigned_afterAssign : Assigned s.countAll (s.afterAssign o) := Assigned.assignContexts _ _

theorem noticed_beforeFrame : NoticeTaken (s.afterLoss o) (s.beforeFrame o) := NoticeTaken.makeOutstanding _ _

theorem afterAssign_cl : (s.afterAssign o).cl = s.cl.countLoss :=
  ((assigned_afterAssign s o).keeps State.cl fun _ _ _ _ => rfl).trans (countAll_cl s)

variable {s o}

theorem afterAssign_of_not (h : o.assignFirst = false) : s.afterAssign o = s.countAll := by
  unfold afterAssign early
  rw [h]
  exact if_neg Bool.noConfusion

theorem beforeFrame_of_not (h : o.noticeFirst = false) : s.beforeFrame o = s.afterLoss o := by
  show early o.noticeFirst makeOutstanding (s.afterLoss o) = _
  unfold early
  rw [h]
  exact if_neg Bool.noConfusion

theorem beforeFrame_of_notice (h : o.noticeFirst = true) : s.beforeFrame o = (s.afterLoss o).makeOutstanding := by
  show early o.noticeFirst makeOutstanding (s.afterLoss o) = _
  unfold early
  exact if_pos h

theorem countLoss_of_lost (hlink : s.cl.link = .up) (hgood : s.cl.markGood = false) (hcount : 15 ≤ s.cl.lossCount) :
    s.cl.countLoss.lossCount = 16 := by
  unfold CarrierLink.countLoss
  dsimp only
  rw [if_neg (by rw [hlink]; exact LinkState.noConfusion), if_neg (by rw [hgood]; exact Bool.noConfusion)]
  show min 16 _ = 16
  omega

/-- The loss count of 16 in UP at a boundary: 15 or more frames before it were lost, and this one. -/
theorem lost_of_countLoss (hlink : s.cl.link = .up) (hcount : 16 ≤ s.cl.countLoss.lossCount) :
    s.cl.markGood = false ∧ 15 ≤ s.cl.lossCount := by
  unfold CarrierLink.countLoss at hcount
  dsimp only at hcount
  rw [if_neg (by rw [hlink]; exact LinkState.noConfusion)] at hcount
  split at hcount
  · omega
  next hgood =>
    have : Config.lossLimit = 16 := rfl
    exact ⟨Bool.eq_false_iff.mpr hgood, by omega⟩

theorem carrierGone_afterLoss (h : s.losesFirst o) : CarrierGone (s.afterAssign o) (s.afterLoss o) := by
  obtain ⟨hfirst, hlink, hgood, hcount⟩ := h
  have hcl := afterAssign_cl s o
  have htaken : s.afterLoss o = (s.afterAssign o).takeLinkDown := if_pos hfirst
  rw [htaken]
  refine carrierGone_takeLinkDown ?_ ?_
  · rw [hcl]
    exact hlink
  · exact Nat.le_of_eq (by rw [hcl, countLoss_of_lost hlink hgood hcount])

theorem afterLoss_of_not (h : ¬ s.losesFirst o) : s.afterLoss o = s.afterAssign o := by
  unfold afterLoss early
  split
  next hfirst =>
    refine takeLinkDown_eq_self fun ⟨hlink, hcount⟩ => ?_
    rw [afterAssign_cl] at hlink hcount
    obtain ⟨hgood, hlost⟩ := lost_of_countLoss hlink hcount
    exact h ⟨hfirst, hlink, hgood, hlost⟩
  next => rfl

/-! ## After the frame is built -/

variable (s o)

/-- The frame, and what it changes, aside: the state is the one it was built in. -/
theorem framed_keeps {β : Type} (g : State → β) (hg : ∀ (u : State) p x y n q, g { u with
    bi := { u.bi with pairing := p }
    cl := { u.cl with sending := x, captures := y }
    sn := { u.sn with outstanding := n }
    freeUsed := q } = g u) : g (s.framed o) = g (s.beforeFrame o) :=
  (hg _ _ _ _ _ _).symm.trans (congrArg g (framed_rest s o))

theorem carryAll_frame (u : State) : u.carryAll.frame = u.frame := by
  refine frame_foldl _ (fun v c => ?_) _ _
  unfold carryStep
  split
  · rfl
  · split
    · rfl
    · rw [frame_chooseWord, frame_quietStep]

theorem carryAll_keeps {β : Type} (g : State → β) (hg : ∀ (u : State) b m p d e, g { u with
    bi := b, cm := m, cp := p, du := d, due := e } = g u) (u : State) : g u.carryAll = g u :=
  (hg _ _ _ _ _ _).symm.trans (congrArg g (carryAll_rest u))

/-- What neither the frame, nor the fibre words, nor the steps left due change. -/
theorem runningBoundary_keeps {β : Type} (g : State → β) (hf : ∀ (u : State) p x y n q, g { u with
      bi := { u.bi with pairing := p }
      cl := { u.cl with sending := x, captures := y }
      sn := { u.sn with outstanding := n }
      freeUsed := q } = g u)
    (hc : ∀ (u : State) b m p d e, g { u with bi := b, cm := m, cp := p, du := d, due := e } = g u) :
    g (s.runningBoundary o) = g (s.beforeFrame o) := by
  have hdue : g { s.runningBoundary o with due := (s.framed o).carryAll.due } = g (s.runningBoundary o) :=
    hc (s.runningBoundary o) (s.runningBoundary o).bi (s.runningBoundary o).cm (s.runningBoundary o).cp
      (s.runningBoundary o).du _
  rw [← hdue, runningBoundary_rest, carryAll_keeps g hc, framed_keeps s o g hf]

theorem runningBoundary_cl : (s.runningBoundary o).cl = { (s.afterLoss o).cl with
    sending := (s.framed o).cl.sending, captures := [] } := by
  have hcarry : (s.runningBoundary o).cl = (s.framed o).cl := carryAll_keeps State.cl (fun _ _ _ _ _ _ => rfl) _
  have hframed : { (s.framed o).cl with sending := none, captures := [] } =
      ({ (s.beforeFrame o).cl with sending := none, captures := [] } : CarrierLink) :=
    framed_keeps s o (fun u => { u.cl with sending := none, captures := [] }) fun _ _ _ _ _ _ => rfl
  have hbefore : (s.beforeFrame o).cl = (s.afterLoss o).cl :=
    (noticed_beforeFrame s o).keeps State.cl fun _ _ _ _ _ _ _ _ => rfl
  rw [hcarry, ← hbefore]
  exact congrArg (fun x : CarrierLink => { x with sending := (s.framed o).cl.sending }) hframed

end

theorem mem_due_of_loss {s : State} {o : BoundaryOrder} {d : Due} (h : d ∈ s.countAll.lossDue) :
    d ∈ (s.runningBoundary o).due := by
  rw [runningBoundary_due]
  simp only [List.mem_append, h, true_or, or_true]

theorem lossDue_eq {s : State} (h : s.cl.lossCount = 16) : s.lossDue =
    match s.cl.link with
    | .up => [.linkDown]
    | .hunting => [.huntLoss]
    | .dark => [] := by
  unfold lossDue
  rw [h]
  exact if_neg (Nat.lt_irrefl 16)

end State

/-- Settles O20: the loss count by `countAll_cl`, the loss by `carrierGone_afterLoss`. -/
theorem lossCountStepsAtTheBoundary : Obligations.LossCountStepsAtTheBoundary := by
  intro i o s hsteady hsending hboundary count
  obtain ⟨τ, f, hf, hexec⟩ := State.exec_steady_boundary hsteady hsending hboundary
  let u := s.timerAt τ
  let T := u.runningBoundary o
  have hcl : (f T).cl = _ :=
    (State.finish_keeps hf State.cl (fun _ _ _ => rfl) T).trans (State.runningBoundary_cl u o)
  have hdue {d : Due} (h : d ∈ u.countAll.lossDue) : d ∈ (f T).due := by
    rw [State.finish_keeps hf State.due (fun _ _ _ => rfl) T]
    exact State.mem_due_of_loss h
  have hcount : s.cl.countLoss.lossCount = count := rfl
  have hcountAll : u.countAll.cl = s.cl.countLoss := State.countAll_cl u
  have hbefore : (u.afterAssign o).cl = s.cl.countLoss := State.afterAssign_cl u o
  refine ⟨f T, hexec, ?_, fun h => ?_, fun hfirst hlink h16 => hdue ?_, fun hlink h16 => hdue ?_, fun hfirst hlink h16 => ?_⟩
  · rw [hcl]
    by_cases hlost : u.losesFirst o
    · rw [(State.carrierGone_afterLoss hlost).link, hbefore]
      rfl
    · rw [State.afterLoss_of_not hlost, hbefore]
      rfl
  · have hlost : ¬ u.losesFirst o := by
      rintro ⟨hfirst, hlink, hgood, h15⟩
      have hfull : count = 16 := State.countLoss_of_lost hlink hgood h15
      obtain h | h | h := h
      · exact Bool.noConfusion (hfirst.symm.trans h)
      · exact h hlink
      · omega
    rw [hcl, State.afterLoss_of_not hlost, hbefore]
    exact ⟨rfl, rfl⟩
  · rw [State.lossDue_eq (by rw [hcountAll]; exact h16), hcountAll, show s.cl.countLoss.link = .up from hlink]
    exact List.mem_singleton.mpr rfl
  · rw [State.lossDue_eq (by rw [hcountAll]; exact h16), hcountAll, show s.cl.countLoss.link = .hunting from hlink]
    exact List.mem_singleton.mpr rfl
  · obtain ⟨hgood, h15⟩ := State.lost_of_countLoss hlink (Nat.le_of_eq h16.symm)
    rw [hcl, (State.carrierGone_afterLoss (s := u) ⟨hfirst, hlink, hgood, h15⟩).link]
    exact ⟨rfl, rfl⟩

end Sys2Proof.Machine
end

section
/-! SUPPORT. The fibre words of a boundary (R116, R119 to R121): what the walk over the registers leaves of the records and
the contexts. -/

namespace Sys2Proof.Machine

/-- The record of a channel that collapses (R36, R121). -/
def ChannelRecord.collapses (r : ChannelRecord) : ChannelRecord :=
  { r.moved .carried .fibre .pass .live with
    active := ⟨.fibre, .pass, .live⟩, context := none, lag := 0, collapsed := true }

/-- A record after the fibre words are chosen: the one it was, or that of a CARRIED channel collapsed. -/
inductive ChannelRecord.Carried (r : ChannelRecord) : ChannelRecord → Prop
  | kept : Carried r r
  | collapses (k : CtxNo) (hphase : r.phase = .carried) (hk : r.context = some k) : Carried r r.collapses

/-- A context after the fibre words are chosen: its activity marks aside, the one it was (R119). -/
def Context.MarkedFrom (x y : Context) : Prop := { y with window := x.window, lastSubstituted := x.lastSubstituted } = x

/-- What the fibre words leave of the records and the contexts. -/
structure Carried (s t : State) : Prop where
  record : ∀ c, (s.channel c).Carried (t.channel c)
  context : ∀ k y, t.context k = some y → ∃ x, s.context k = some x ∧ x.MarkedFrom y
  kept : ∀ k x, s.context k = some x → (∀ c, (s.channel c).context = some k → (s.channel c).phase ≠ .carried) →
    ∃ y, t.context k = some y

namespace ChannelRecord.Carried

variable {r r' : ChannelRecord}

theorem slot_eq (h : r.Carried r') : r'.slot = r.slot := by cases h <;> rfl

theorem eq_of_phase (h : r.Carried r') (hphase : r.phase ≠ .carried) : r' = r := by
  cases h with
  | kept => rfl
  | collapses k h => exact absurd h hphase

theorem eq_of_context (h : r.Carried r') (hk : r.context = none) : r' = r := by
  cases h with
  | kept => rfl
  | collapses k _ h => exact absurd (hk.symm.trans h) nofun

theorem trans {r'' : ChannelRecord} (h : r.Carried r') (h' : r'.Carried r'') : r.Carried r'' := by
  cases h with
  | kept => exact h'
  | collapses k hphase hk =>
    rw [h'.eq_of_context rfl]
    exact .collapses k hphase hk

end ChannelRecord.Carried

theorem Context.MarkedFrom.refl (x : Context) : x.MarkedFrom x := rfl

theorem Context.MarkedFrom.trans {x y z : Context} (h : x.MarkedFrom y) (h' : y.MarkedFrom z) : x.MarkedFrom z :=
  Eq.trans (congrArg (fun v : Context => { v with window := x.window, lastSubstituted := x.lastSubstituted }) h') h

namespace State

/-- A channel's collapse claim, made (R36). -/
def collapse (s : State) (c : Channel) (k : CtxNo) : State :=
  { s with
    cm := Assoc.put s.cm c (s.channel c).collapses
    cp := { s.cp with contexts := Assoc.drop s.cp.contexts k }
    du := s.du.raised .collapsed c }

/-- A CARRIED channel whose guard is over and whose context has gone quiet (R120). -/
structure GoneQuiet (s : State) (c : Channel) (k : CtxNo) : Prop where
  phase : (s.channel c).phase = .carried
  named : (s.channel c).context = some k
  quiet : ∃ x y, s.context k = some x ∧ s.register c = some y ∧ x.guardRemaining = 0 ∧ s.quiet c x y = true

theorem quietStep_of_quiet {s : State} {c : Channel} {k : CtxNo} (h : s.GoneQuiet c k) : s.quietStep c = s.collapse c k := by
  obtain ⟨hphase, hk, x, y, hx, hy, hguard, hquiet⟩ := h
  rw [quietStep_eq hphase hk hx hguard hy, if_pos hquiet]
  rfl

theorem quietStep_of_not {s : State} {c : Channel} (h : ∀ k, ¬ s.GoneQuiet c k) : s.quietStep c = s := by
  unfold quietStep
  split
  next k y hk hy =>
    split
    next => rfl
    next x hx => exact if_neg fun ⟨hphase, hguard, hquiet⟩ => h k ⟨hphase, hk, x, y, hx, hy, hguard, hquiet⟩
  next => rfl

end State

namespace Carried

variable {s t u : State}

theorem refl (s : State) : Carried s s := ⟨fun _ => .kept, fun _ y h => ⟨y, h, .refl y⟩, fun _ x h _ => ⟨x, h⟩⟩

theorem trans (h : Carried s t) (h' : Carried t u) : Carried s u := by
  refine ⟨fun c => (h.record c).trans (h'.record c), fun k z hz => ?_, fun k x hx hnot => ?_⟩
  · obtain ⟨y, hy, hyz⟩ := h'.context k z hz
    obtain ⟨x, hx, hxy⟩ := h.context k y hy
    exact ⟨x, hx, hxy.trans hyz⟩
  · obtain ⟨y, hy⟩ := h.kept k x hx hnot
    refine h'.kept k y hy fun c hk => ?_
    have hrecord := h.record c
    have hphase := hnot c
    generalize s.channel c = r at hrecord hphase
    generalize t.channel c = r' at hrecord hk
    cases hrecord with
    | kept => exact hphase hk
    | collapses => cases hk

theorem collapse {c : Channel} {k : CtxNo} (hphase : (s.channel c).phase = .carried) (hk : (s.channel c).context = some k) :
    Carried s (s.collapse c k) := by
  refine ⟨fun d => ?_, fun j y hy => ?_, fun j x hx hnot => ?_⟩
  · exact State.channel_put_cases (s := s) (P := fun d r => (s.channel d).Carried r) rfl (.collapses k hphase hk)
      (fun _ _ => .kept) d
  · have hne : j ≠ k := by
      rintro rfl
      exact absurd (hy.symm.trans (Assoc.find_drop_same s.cp.contexts j)) nofun
    exact ⟨y, (Assoc.find_drop_other s.cp.contexts hne).symm.trans hy, .refl y⟩
  · have hne : j ≠ k := fun e => hnot c (e ▸ hk) hphase
    exact ⟨x, (Assoc.find_drop_other s.cp.contexts hne).trans hx⟩

theorem quietStep (s : State) (c : Channel) : Carried s (s.quietStep c) := by
  by_cases h : ∃ k, s.GoneQuiet c k
  · obtain ⟨k, hk⟩ := h
    rw [State.quietStep_of_quiet hk]
    exact collapse hk.phase hk.named
  · rw [State.quietStep_of_not (not_exists.mp h)]
    exact refl s

theorem of_mark {c : Channel} {w : Pattern} (hcm : t.cm = s.cm)
    (hcp : t.cp.contexts = s.contextsChanged c fun x => x.mark w) : Carried s t := by
  have hchannel (d : Channel) : t.channel d = s.channel d := by
    unfold State.channel
    rw [hcm]
  have hcontext (k : CtxNo) : t.context k = Assoc.find (s.contextsChanged c fun x => x.mark w) k := by
    unfold State.context
    rw [hcp]
  refine ⟨fun d => by rw [hchannel]; exact .kept, fun k y hy => ?_, fun k x hx _ => ?_⟩
  · rw [hcontext] at hy
    by_cases hk : (s.channel c).context = some k
    · cases hx : s.context k with
      | none => exact absurd ((State.find_contextsChanged_none c _ hx).symm.trans hy) nofun
      | some x =>
        have hmark := Option.some.inj ((State.context_contextsChanged_same _ hk hx).symm.trans hy)
        exact ⟨x, rfl, hmark ▸ rfl⟩
    · exact ⟨y, (State.context_contextsChanged_other _ (Ne.symm hk)).symm.trans hy, .refl y⟩
  · rw [hcontext]
    by_cases hk : (s.channel c).context = some k
    · exact ⟨_, State.context_contextsChanged_same _ hk hx⟩
    · exact ⟨x, (State.context_contextsChanged_other _ (Ne.symm hk)).trans hx⟩

theorem of_eq (hcm : t.cm = s.cm) (hcp : t.cp.contexts = s.cp.contexts) : Carried s t := by
  refine ⟨fun d => ?_, fun k y hy => ⟨y, ?_, .refl y⟩, fun k x hx _ => ⟨x, ?_⟩⟩
  · unfold State.channel
    rw [hcm]
    exact .kept
  · unfold State.context at hy ⊢
    rw [← hcp]
    exact hy
  · unfold State.context at hx ⊢
    rw [hcp]
    exact hx

theorem chooseWord (s : State) (c : Channel) : Carried s (s.chooseWord c) := by
  cases hy : s.register c with
  | none =>
    have hsame : s.chooseWord c = s := by
      unfold State.chooseWord
      rw [hy]
    rw [hsame]
    exact refl s
  | some y =>
    rw [State.chooseWord_eq hy]
    by_cases hphase : (s.channel c).phase = .carried
    · exact of_mark (c := c) rfl (if_pos hphase)
    · exact of_eq rfl (if_neg hphase)

theorem carryStep (s : State) (c : Channel) : Carried s (s.carryStep c) := by
  unfold State.carryStep
  split
  · exact refl s
  · split
    · exact refl s
    · exact (quietStep s c).trans (chooseWord _ c)

theorem fold (l : List Channel) (s : State) : Carried s (l.foldl State.carryStep s) := by
  induction l generalizing s with
  | nil => exact refl s
  | cons c l ih => exact (carryStep s c).trans (ih _)

/-- The fibre words of a boundary, register by register (R116). -/
theorem carryAll (s : State) : Carried s s.carryAll := fold _ s

end Carried

namespace State

theorem framed_channel (s : State) (o : BoundaryOrder) (c : Channel) : (s.framed o).channel c = (s.beforeFrame o).channel c :=
  framed_keeps s o (fun u => u.channel c) fun _ _ _ _ _ _ => rfl

theorem framed_context (s : State) (o : BoundaryOrder) (k : CtxNo) : (s.framed o).context k = (s.beforeFrame o).context k :=
  framed_keeps s o (fun u => u.context k) fun _ _ _ _ _ _ => rfl

end State

end Sys2Proof.Machine
end

section
/-! SUPPORT. What a boundary holds when its frame is built: the records, the slots and the notices (log 2); and the frame
that it sends (R67, R71, R91, R107). -/

namespace Sys2Proof.Machine

theorem SlotEntry.boundary_state (e : SlotEntry) : e.boundary.state = e.state := by
  unfold boundary
  dsimp only
  split
  · rfl
  · split <;> rfl

namespace State

section
variable {s : State} {o : BoundaryOrder}

/-! ## Records and slots -/

theorem afterAssign_channel {c : Channel}
    (h : o.assignFirst = false ∨ (s.channel c).phase ≠ .enrolled ∧ (s.channel c).phase ≠ .fallen) :
    (s.afterAssign o).channel c = (s.channel c).latchRoute := by
  obtain h | ⟨henrolled, hfallen⟩ := h
  · rw [afterAssign_of_not h, countAll_channel]
  · have hcount := countAll_channel s c
    refine ((assigned_afterAssign s o).channel_eq ?_ ?_).trans hcount
    · rw [hcount]
      exact henrolled
    · rw [hcount]
      exact hfallen

theorem afterLoss_channel_of_lost {c : Channel} (hlost : s.losesFirst o)
    (h : o.assignFirst = false ∨ (s.channel c).phase ≠ .enrolled ∧ (s.channel c).phase ≠ .fallen) :
    (s.afterLoss o).channel c = (s.channel c).latchRoute.lost := by
  rw [(carrierGone_afterLoss hlost).record c, afterAssign_channel h]

theorem afterLoss_channel_of_not {c : Channel} (hlost : ¬ s.losesFirst o)
    (h : o.assignFirst = false ∨ (s.channel c).phase ≠ .enrolled ∧ (s.channel c).phase ≠ .fallen) :
    (s.afterLoss o).channel c = (s.channel c).latchRoute := by
  rw [afterLoss_of_not hlost, afterAssign_channel h]

theorem afterLoss_channel_of_phase {c : Channel}
    (h : o.assignFirst = false ∨ (s.channel c).phase ≠ .enrolled ∧ (s.channel c).phase ≠ .fallen)
    (hphase : (s.channel c).phase ∉ [.proven, .cutting, .carried, .retired]) :
    (s.afterLoss o).channel c = (s.channel c).latchRoute := by
  by_cases hlost : s.losesFirst o
  · rw [afterLoss_channel_of_lost hlost h]
    exact ChannelRecord.lost_of_phase hphase
  · exact afterLoss_channel_of_not hlost h

/-- What the early steps before SN's test keep of every record. -/
theorem afterLoss_record_keeps {β : Type} (g : ChannelRecord → β)
    (hassign : ∀ {free r r'}, ChannelRecord.Assigned free r r' → g r' = g r) (hlost : ∀ r, g r.lost = g r) (c : Channel) :
    g ((s.afterLoss o).channel c) = g (s.channel c).latchRoute := by
  have hassigned : g ((s.afterAssign o).channel c) = g (s.channel c).latchRoute :=
    (hassign ((assigned_afterAssign s o).record c)).trans (congrArg g (countAll_channel s c))
  by_cases h : s.losesFirst o
  · rw [(carrierGone_afterLoss h).record c, hlost, hassigned]
  · rw [afterLoss_of_not h, hassigned]

theorem afterLoss_slotOf (c : Channel) : ((s.afterLoss o).channel c).slot = (s.channel c).slot :=
  afterLoss_record_keeps ChannelRecord.slot (fun h => h.slot_eq) ChannelRecord.lost_slot c

theorem afterLoss_idle (c : Channel) : ((s.afterLoss o).channel c).idle = (s.channel c).idle :=
  afterLoss_record_keeps ChannelRecord.idle (fun h => h.idle_eq) ChannelRecord.lost_idle c

theorem afterLoss_label (c : Channel) : ((s.afterLoss o).channel c).label = (s.channel c).label :=
  afterLoss_record_keeps ChannelRecord.label (fun h => h.label_eq) ChannelRecord.lost_label c

theorem afterLoss_active (c : Channel) : ((s.afterLoss o).channel c).active = (s.channel c).pending :=
  afterLoss_record_keeps ChannelRecord.active (fun h => h.active_eq) ChannelRecord.lost_active c

theorem afterLoss_slot_of_lost (hlost : s.losesFirst o) (n : SlotNo) : (s.afterLoss o).slot n = (s.slot n).boundary.linkLost := by
  rw [(carrierGone_afterLoss hlost).slots n, (assigned_afterAssign s o).slot_eq n, countAll_slot]

theorem afterLoss_slot_of_not (hlost : ¬ s.losesFirst o) (n : SlotNo) : (s.afterLoss o).slot n = (s.slot n).boundary := by
  rw [afterLoss_of_not hlost, (assigned_afterAssign s o).slot_eq n, countAll_slot]

/-- What a carrier loss keeps of every slot entry. -/
theorem afterLoss_slot_keeps {β : Type} (g : SlotEntry → β) (hg : ∀ e : SlotEntry, g e.linkLost = g e) (n : SlotNo) :
    g ((s.afterLoss o).slot n) = g (s.slot n).boundary := by
  by_cases hlost : s.losesFirst o
  · rw [afterLoss_slot_of_lost hlost, hg]
  · rw [afterLoss_slot_of_not hlost]

theorem afterLoss_slot_state (n : SlotNo) : ((s.afterLoss o).slot n).state = (s.slot n).state :=
  (afterLoss_slot_keeps SlotEntry.state (fun _ => rfl) n).trans (SlotEntry.boundary_state _)

/-! ## Notices -/

/-- The requests when SN's test is made: those of the state before, with the JOINs of the assignments taken first, but for
the CUTs that a carrier loss withdraws. -/
theorem afterLoss_requests (s : State) (o : BoundaryOrder) : ∃ (p : Request → Bool) (l : List Request),
    (∀ r, r.kind ≠ .cut ∨ ¬ s.losesFirst o → p r = true) ∧
    (∀ r ∈ l, r.kind = .join ∧ (s.channel r.channel).phase = .enrolled) ∧ (o.assignFirst = false → l = []) ∧
    (s.afterLoss o).sn.queue = (s.sn.queue ++ l).filter p ∧
    (s.afterLoss o).sn.outstanding = (s.sn.outstanding.map Outstanding.boundary).filter fun x => p ⟨x.kind, x.channel⟩ := by
  have hassigned := assigned_afterAssign s o
  obtain ⟨l, hqueue, hl⟩ : ∃ l, (s.afterAssign o).sn.queue = s.sn.queue ++ l ∧
      (∀ r ∈ l, r.kind = .join ∧ (s.channel r.channel).phase = .enrolled) ∧ (o.assignFirst = false → l = []) := by
    have hcount : s.countAll.sn.queue = s.sn.queue := congrArg (·.queue) (countAll_sn s)
    by_cases hassign : o.assignFirst = false
    · exact ⟨[], by rw [afterAssign_of_not hassign, hcount, List.append_nil], fun _ h => absurd h List.not_mem_nil, fun _ => rfl⟩
    · obtain ⟨l, hl, hjoins⟩ := hassigned.requests
      rw [hcount] at hl
      refine ⟨l, hl, fun r hr => ⟨(hjoins r hr).1, ?_⟩, fun h => absurd h hassign⟩
      have hphase := (hjoins r hr).2
      rw [countAll_channel] at hphase
      exact hphase
  have hout : (s.afterAssign o).sn.outstanding = s.sn.outstanding.map Outstanding.boundary :=
    (hassigned.keeps (fun u => u.sn.outstanding) fun _ _ _ _ => rfl).trans (congrArg (·.outstanding) (countAll_sn s))
  by_cases hlost : s.losesFirst o
  · obtain ⟨p, hp, -⟩ := (carrierGone_afterLoss hlost).requests
    refine ⟨p, l, fun r hr => hp.others r (hr.resolve_right fun h => h hlost), hl.1, hl.2, ?_, ?_⟩
    · rw [hp.queue, hqueue]
    · rw [hp.outstanding, hout]
  · refine ⟨fun _ => true, l, fun _ _ => rfl, hl.1, hl.2, ?_, ?_⟩
    · rw [afterLoss_of_not hlost, hqueue, List.filter_eq_self.mpr fun _ _ => rfl]
    · rw [afterLoss_of_not hlost, hout]
      cases s.sn.outstanding <;> rfl

theorem afterLoss_outstanding_none (h : s.sn.outstanding = none) : (s.afterLoss o).sn.outstanding = none := by
  obtain ⟨p, l, -, -, -, -, hout⟩ := afterLoss_requests s o
  rw [hout, h]
  rfl

theorem afterLoss_outstanding_some {n : Outstanding} (h : s.sn.outstanding = some n)
    (hkind : ¬ s.losesFirst o ∨ n.kind ≠ .cut) : (s.afterLoss o).sn.outstanding = some n.boundary := by
  obtain ⟨p, l, hp, -, -, -, hout⟩ := afterLoss_requests s o
  rw [hout, h]
  have htrue : p ⟨n.boundary.kind, n.boundary.channel⟩ = true := hp _ hkind.symm
  simp [htrue]

theorem beforeFrame_outstanding_some {n : Outstanding} (h : s.sn.outstanding = some n)
    (hkind : ¬ s.losesFirst o ∨ n.kind ≠ .cut) : (s.beforeFrame o).sn.outstanding = some n.boundary := by
  have hout := afterLoss_outstanding_some h hkind
  by_cases hnotice : o.noticeFirst = true
  · rw [beforeFrame_of_notice hnotice, makeOutstanding_of_outstanding (by rw [hout]; exact Option.some_ne_none _), hout]
  · rw [beforeFrame_of_not (Bool.eq_false_iff.mpr hnotice), hout]

theorem beforeFrame_outstanding_none (h : s.sn.outstanding = none)
    (hnone : o.noticeFirst = false ∨ s.sn.queue = [] ∧ o.assignFirst = false) : (s.beforeFrame o).sn.outstanding = none := by
  by_cases hnotice : o.noticeFirst = true
  · obtain ⟨hempty, hassign⟩ := hnone.resolve_left fun e => Bool.noConfusion (hnotice.symm.trans e)
    obtain ⟨p, l, -, -, hl, hqueue, -⟩ := afterLoss_requests s o
    rw [hempty, hl hassign] at hqueue
    rw [beforeFrame_of_notice hnotice]
    exact (congrArg (fun u => u.sn.outstanding) (placeUpTo_of_empty _ hqueue)).trans (afterLoss_outstanding_none h)
  · rw [beforeFrame_of_not (Bool.eq_false_iff.mpr hnotice), afterLoss_outstanding_none h]

/-- The head request, where SN's test takes it first and no carrier loss withdraws it. -/
theorem beforeFrame_of_head {r : Request} {rest : List Request} (h : s.sn.outstanding = none)
    (hnotice : o.noticeFirst = true) (hqueue : s.sn.queue = r :: rest) (hkind : r.kind ≠ .cut ∨ ¬ s.losesFirst o) :
    ∃ rest', s.beforeFrame o = makeOutstanding
      (placeHead { s.afterLoss o with sn := { (s.afterLoss o).sn with queue := rest' } } r) := by
  obtain ⟨p, l, hp, -, -, hafter, -⟩ := afterLoss_requests s o
  rw [hqueue, List.cons_append, List.filter_cons, if_pos (hp r hkind)] at hafter
  exact ⟨_, (beforeFrame_of_notice hnotice).trans (makeOutstanding_cons (afterLoss_outstanding_none h) hafter)⟩

theorem afterLoss_nextNumber : (s.afterLoss o).sn.nextNumber = s.sn.nextNumber := by
  have hassigned : (s.afterAssign o).sn.nextNumber = s.sn.nextNumber :=
    ((assigned_afterAssign s o).keeps (fun u => u.sn.nextNumber) fun _ _ _ _ => rfl).trans
      (congrArg (·.nextNumber) (countAll_sn s))
  by_cases hlost : s.losesFirst o
  · rw [(carrierGone_afterLoss hlost).nextNumber, hassigned]
  · rw [afterLoss_of_not hlost, hassigned]

theorem afterLoss_frame : (s.afterLoss o).frame = s.countAll.frame := by
  unfold afterLoss afterAssign early
  split <;> split <;> simp

theorem countAll_params : s.countAll.sc.params = s.sc.params := congrArg (·.params) (countAll_sc s)

theorem afterLoss_params : (s.afterLoss o).sc.params = s.sc.params :=
  (frame_params afterLoss_frame).trans countAll_params

theorem beforeFrame_peer_of_lost (hlost : s.losesFirst o) : (s.beforeFrame o).sn.peer = none :=
  ((noticed_beforeFrame s o).keeps (fun u => u.sn.peer) fun _ _ _ _ _ _ _ _ => rfl).trans
    (carrierGone_afterLoss hlost).peer

theorem beforeFrame_peer_of_not (hlost : ¬ s.losesFirst o) : (s.beforeFrame o).sn.peer = s.sn.peer := by
  refine ((noticed_beforeFrame s o).keeps (fun u => u.sn.peer) fun _ _ _ _ _ _ _ _ => rfl).trans ?_
  rw [afterLoss_of_not hlost]
  exact ((assigned_afterAssign s o).keeps (fun u => u.sn.peer) fun _ _ _ _ => rfl).trans (congrArg (·.peer) (countAll_sn s))

/-! ## The frame -/

/-- The state of a boundary that its frame is built from. -/
def frameSource (s : State) (o : BoundaryOrder) : State :=
  early o.captureFirst breakPairing (s.beforeFrame o)

variable (s o)

theorem frameSource_keeps {β : Type} (g : State → β) (hg : ∀ (u : State) p x, g { u with
    bi := { u.bi with pairing := p }, cl := { u.cl with captures := x } } = g u) :
    g (s.frameSource o) = g (s.beforeFrame o) := by
  unfold frameSource early
  split
  · have h := congrArg g (breakPairing_rest (s.beforeFrame o))
    exact (hg _ _ _).symm.trans h
  · rfl

theorem breakPairing_pairing (u : State) : u.breakPairing.bi.pairing = none := by
  unfold breakPairing
  split
  next h => exact h
  next => split <;> rfl

theorem framed_sending : (s.framed o).cl.sending = some ((s.frameSource o).buildFrame s.cm) := by
  unfold framed frameSource early
  by_cases h : o.captureFirst = true
  · rw [if_pos h, if_pos h]
    rfl
  · rw [if_neg h, if_neg h]
    dsimp only
    have hkeeps (u : State) : u.breakPairing.cl.sending = u.cl.sending :=
      congrArg (fun v => v.cl.sending) (breakPairing_rest u)
    rw [hkeeps]
    rfl

theorem framed_pairing : (s.framed o).bi.pairing = none := by
  unfold framed
  by_cases h : o.captureFirst = true
  · rw [if_pos h]
    exact breakPairing_pairing _
  · rw [if_neg h]
    exact breakPairing_pairing _

theorem framed_sn : (s.framed o).sn = { (s.beforeFrame o).sn with
    outstanding := (s.beforeFrame o).sn.outstanding.map Outstanding.sentFirst } := by
  have hkeeps (u : State) : u.breakPairing.sn = u.sn := by
    have h := congrArg State.sn (breakPairing_rest u)
    exact h
  unfold framed
  by_cases h : o.captureFirst = true
  · rw [if_pos h]
    show { (s.beforeFrame o).breakPairing.sn with
      outstanding := (s.beforeFrame o).breakPairing.sn.outstanding.map Outstanding.sentFirst } = _
    rw [hkeeps]
  · rw [if_neg h]
    exact hkeeps _

theorem runningBoundary_sn : (s.runningBoundary o).sn = { (s.beforeFrame o).sn with
    outstanding := (s.beforeFrame o).sn.outstanding.map Outstanding.sentFirst } :=
  (carryAll_keeps State.sn (fun _ _ _ _ _ _ => rfl) _).trans (framed_sn s o)

theorem runningBoundary_pairing : (s.runningBoundary o).bi.pairing = none :=
  (frame_pairing (carryAll_frame _)).trans (framed_pairing s o)

theorem runningBoundary_ft : (s.runningBoundary o).ft = s.tick.ft := by
  have hkeeps : (s.runningBoundary o).ft = (s.beforeFrame o).ft :=
    runningBoundary_keeps s o State.ft (fun _ _ _ _ _ _ => rfl) fun _ _ _ _ _ _ => rfl
  rw [hkeeps, frame_ft (frame_beforeFrame s o), countAll_ft]

theorem beforeFrame_role : (s.beforeFrame o).cl.role = s.cl.role :=
  (frame_role (frame_beforeFrame s o)).trans (congrArg (·.role) (countAll_cl s))

end

/-- The notice field that a state's frame carries (R71). -/
theorem noticeField_some {u : State} {n : Outstanding} (h : u.sn.outstanding = some n) :
    u.noticeField = ⟨some n.kind, n.number, n.slot, n.label, BitVec.ofNat 8 n.countdown⟩ := by
  unfold noticeField
  rw [h]

theorem noticeField_none {u : State} (h : u.sn.outstanding = none) :
    u.noticeField.kind = none ∧ u.noticeField.slot = 0 ∧ u.noticeField.label = 0 ∧ u.noticeField.countdown = 0 := by
  unfold noticeField
  rw [h]
  exact ⟨rfl, rfl, rfl, rfl⟩

end State

/-! ## The records of a frame, in their order (R69) -/

theorem markLast_slots (l : List SlotRecord) : (markLast l).map SlotRecord.slot = l.map SlotRecord.slot := by
  induction l with
  | nil => rfl
  | cons r t ih =>
    cases t with
    | nil => rfl
    | cons r' t => exact congrArg (r.slot :: ·) ih

theorem markLast_dropLast {l : List SlotRecord} (h : ∀ x ∈ l, x.last = false) : ∀ x ∈ (markLast l).dropLast, x.last = false := by
  induction l with
  | nil => exact fun _ hx => absurd hx List.not_mem_nil
  | cons r t ih =>
    cases t with
    | nil => exact fun _ hx => absurd hx List.not_mem_nil
    | cons r' t =>
      have hne : markLast (r' :: t) ≠ [] := by cases t <;> exact List.cons_ne_nil _ _
      intro x hx
      have hx : x ∈ (r :: markLast (r' :: t)).dropLast := hx
      rw [List.dropLast_cons_of_ne_nil hne] at hx
      obtain rfl | hx := List.mem_cons.mp hx
      · exact h x List.mem_cons_self
      · exact ih (fun y hy => h y (List.mem_cons_of_mem _ hy)) x hx

theorem markLast_getLast {l : List SlotRecord} : ∀ x, (markLast l).getLast? = some x → x.last = true := by
  induction l with
  | nil => exact nofun
  | cons r t ih =>
    cases t with
    | nil =>
      rintro x ⟨⟩
      rfl
    | cons r' t =>
      intro x hx
      have hne : markLast (r' :: t) ≠ [] := by cases t <;> exact List.cons_ne_nil _ _
      have hx : (r :: markLast (r' :: t)).getLast? = some x := hx
      rw [List.getLast?_cons_of_ne_nil hne] at hx
      exact ih x hx

namespace State

/-- What the records gathered so far are: in ascending order of slot, each under its slot, with LAST clear. -/
structure Gathered (acc : Assoc SlotNo SlotRecord) : Prop where
  order : (Assoc.keys acc).Pairwise (· < ·)
  entries : ∀ p ∈ acc, p.2.slot = p.1 ∧ p.2.last = false

theorem Gathered.put {acc : Assoc SlotNo SlotRecord} (h : Gathered acc) {n : SlotNo} {x : SlotRecord}
    (hx : x.slot = n ∧ x.last = false) : Gathered (Assoc.put acc n x) :=
  ⟨Assoc.pairwise_keys_put n x h.order, Assoc.forall_put (P := fun p : SlotNo × SlotRecord => p.2.slot = p.1 ∧ p.2.last = false) h.entries hx⟩

theorem recordFor_slot (u : State) (c : Channel) (n : SlotNo) (live : Bool) :
    (u.recordFor c n live).slot = n ∧ (u.recordFor c n live).last = false := by
  unfold recordFor
  split <;> exact ⟨rfl, rfl⟩

theorem Gathered.addRecord {u : State} {acc : Assoc SlotNo SlotRecord} (h : Gathered acc) (old : Channel × ChannelRecord) :
    Gathered (u.addRecord acc old) := by
  unfold State.addRecord
  split
  · exact h
  · exact h
  · exact h.put (recordFor_slot u _ _ _)
  · exact h.put (recordFor_slot u _ _ _)

theorem Gathered.fold {u : State} (l : Assoc Channel ChannelRecord) {acc : Assoc SlotNo SlotRecord} (h : Gathered acc) :
    Gathered (l.foldl u.addRecord acc) := by
  induction l generalizing acc with
  | nil => exact h
  | cons old l ih => exact ih (h.addRecord old)

theorem gathered_nil : Gathered [] := ⟨List.Pairwise.nil, fun _ h => absurd h List.not_mem_nil⟩

theorem Gathered.slots {acc : Assoc SlotNo SlotRecord} (h : Gathered acc) :
    (acc.map Prod.snd).map SlotRecord.slot = Assoc.keys acc := by
  have hentries := h.entries
  clear h
  induction acc with
  | nil => rfl
  | cons p t ih =>
    obtain ⟨n, x⟩ := p
    have hx : x.slot = n := (hentries _ List.mem_cons_self).1
    simp only [List.map_cons, Assoc.keys, hx, ih fun p hp => hentries p (List.mem_cons_of_mem _ hp)]

theorem frameRecords_order (u : State) (ended : Assoc Channel ChannelRecord) :
    ((u.frameRecords ended).map SlotRecord.slot).Pairwise (· < ·) ∧
    (∀ x ∈ (u.frameRecords ended).dropLast, x.last = false) ∧
    ∀ x, (u.frameRecords ended).getLast? = some x → x.last = true := by
  have hgathered : Gathered (ended.foldl u.addRecord []) := gathered_nil.fold ended
  refine ⟨?_, markLast_dropLast fun x hx => ?_, markLast_getLast⟩
  · unfold frameRecords
    rw [markLast_slots, hgathered.slots]
    exact hgathered.order
  · obtain ⟨p, hp, rfl⟩ := List.mem_map.mp hx
    exact (hgathered.entries p hp).2

/-- What a boundary row does after the boundary: the mark, and an event of it. -/
theorem exec_steady_finish {i : Instr} {o : BoundaryOrder} {s : State} (h : s.steady) (hs : s.cl.sending = none)
    (hb : boundaryOf i s = some o) : ∃ τ f, Finish f ∧ exec i s = .next (f ((s.timerAt τ).runningBoundary o)) ∧
      (∀ u : State, { (f u).ft with mark := u.ft.mark } = u.ft) ∧ ∀ (u : State) e, u.du.shows e → (f u).du.shows e := by
  obtain ⟨τ, f, hf, hexec, hrow, -⟩ := exec_boundaryOf hb h.2.2
  refine ⟨τ, f, hf, by rw [hexec, boundary_steady h hs], ?_⟩
  obtain ⟨_, -, rfl⟩ | ⟨-, rfl⟩ | ⟨-, -, rfl⟩ := hrow
  · cases s.ft.mark with
    | locked => exact ⟨fun _ => rfl, fun _ _ hu => hu⟩
    | holdover =>
      refine ⟨fun u => ?_, fun u e hu => ?_⟩
      · unfold relock
        rw [raise_eq]
      · unfold relock
        rw [raise_eq]
        exact DirectiveUnit.shows_raised hu _ _
  · refine ⟨fun u => ?_, fun u e hu => ?_⟩
    · unfold loseMark
      rw [raise_eq]
    · unfold loseMark
      rw [raise_eq]
      exact DirectiveUnit.shows_raised hu _ _
  · exact ⟨fun _ => rfl, fun _ _ hu => hu⟩

end State

end Sys2Proof.Machine
end

section
/-! SUPPORT. The carrier frame of a boundary (R67, R71, R91, R107), and the statement that it settles. -/

namespace Sys2Proof.Machine

namespace State

section
variable {s : State} {o : BoundaryOrder}

/-- A head JOIN that SN's test takes first, with a FREE slot (R91). -/
theorem noticeField_of_join {c : Channel} {rest : List Request} {n : SlotNo} {l : Word}
    (h : s.sn.outstanding = none) (hnotice : o.noticeFirst = true) (hqueue : s.sn.queue = ⟨.join, c⟩ :: rest)
    (hphase : (s.channel c).phase = .joining) (hlabel : (s.channel c).label = some l)
    (hfree : (s.slot n).state = .free) (hbelow : ∀ m, m < n → (s.slot m).state ≠ .free) :
    (s.beforeFrame o).noticeField = ⟨some .join, s.sn.nextNumber, n, l, 0⟩ := by
  obtain ⟨rest', hbefore⟩ := beforeFrame_of_head h hnotice hqueue (.inl NoticeKind.noConfusion)
  let v : State := { s.afterLoss o with sn := { (s.afterLoss o).sn with queue := rest' } }
  have hrecord : v.channel c = (s.channel c).latchRoute := afterLoss_channel_of_phase
    (.inr (by rw [hphase]; exact ⟨Phase.noConfusion, Phase.noConfusion⟩)) (by rw [hphase]; decide)
  have hslot : v.lowestFreeSlot = some n :=
    lowestFreeSlot_eq_some ((afterLoss_slot_state n).trans hfree) fun m hm => by
      rw [show (v.slot m).state = (s.slot m).state from afterLoss_slot_state m]
      exact hbelow m hm
  have hjoining : (v.channel c).phase = .joining := by rw [hrecord]; exact hphase
  rw [hbefore, placeHead_join (s := v) hjoining hslot, makeOutstanding_of_outstanding (Option.some_ne_none _)]
  refine (noticeField_some rfl).trans ?_
  have hlabelOf (w : State) (hw : w.channel c = { v.channel c with slot := some n }) : w.labelOf c = l := by
    unfold labelOf
    rw [hw, show (v.channel c).label = some l by rw [hrecord]; exact hlabel]
    rfl
  dsimp only [place]
  rw [if_pos rfl, if_neg NoticeKind.noConfusion, hlabelOf _ (channel_put (s := v) rfl),
    show (s.afterLoss o).sn.nextNumber = s.sn.nextNumber from afterLoss_nextNumber]
  rfl

theorem noticeField_of_cut {c : Channel} {rest : List Request} {n : SlotNo} (h : s.sn.outstanding = none)
    (hnotice : o.noticeFirst = true) (hqueue : s.sn.queue = ⟨.cut, c⟩ :: rest) (hslot : (s.channel c).slot = some n)
    (hlost : ¬ s.losesFirst o) : (s.beforeFrame o).noticeField =
      ⟨some .cut, s.sn.nextNumber, n, 0, BitVec.ofNat 8 s.sc.params.noticeLead⟩ := by
  obtain ⟨rest', hbefore⟩ := beforeFrame_of_head h hnotice hqueue (.inr hlost)
  let v : State := { s.afterLoss o with sn := { (s.afterLoss o).sn with queue := rest' } }
  have hnamed : (v.channel c).slot = some n := (afterLoss_slotOf c).trans hslot
  rw [hbefore, placeHead_cut (s := v) hnamed, makeOutstanding_of_outstanding (Option.some_ne_none _)]
  refine (noticeField_some rfl).trans ?_
  dsimp only [place]
  rw [if_neg NoticeKind.noConfusion, if_pos rfl,
    show (s.afterLoss o).sn.nextNumber = s.sn.nextNumber from afterLoss_nextNumber,
    show (s.afterLoss o).sc.params = s.sc.params from afterLoss_params]

theorem noticeField_of_leave {c : Channel} {rest : List Request} {n : SlotNo} (h : s.sn.outstanding = none)
    (hnotice : o.noticeFirst = true) (hqueue : s.sn.queue = ⟨.leave, c⟩ :: rest) (hslot : (s.channel c).slot = some n) :
    (s.beforeFrame o).noticeField = ⟨some .leave, s.sn.nextNumber, n, 0, 0⟩ := by
  obtain ⟨rest', hbefore⟩ := beforeFrame_of_head h hnotice hqueue (.inl NoticeKind.noConfusion)
  let v : State := { s.afterLoss o with sn := { (s.afterLoss o).sn with queue := rest' } }
  have hnamed : (v.channel c).slot = some n := (afterLoss_slotOf c).trans hslot
  rw [hbefore, placeHead_leave (s := v) hnamed, makeOutstanding_of_outstanding (Option.some_ne_none _)]
  refine (noticeField_some rfl).trans ?_
  dsimp only [place]
  rw [if_neg NoticeKind.noConfusion, if_neg NoticeKind.noConfusion]
  exact congrArg (fun x => (⟨some .leave, x, n, 0, 0⟩ : NoticeField)) (afterLoss_nextNumber (s := s) (o := o))

end

end State

/-- Settles O18: the frame of `framed_sending`, its notice by `beforeFrame_outstanding_some` and the head lemmas, its
records by `frameRecords_order`. -/
theorem boundarySendsOneCarrierFrame : Obligations.BoundarySendsOneCarrierFrame := by
  intro i o s r hsteady hsending hboundary hrole
  obtain ⟨τ, f, hf, hexec, hft, -⟩ := State.exec_steady_finish hsteady hsending hboundary
  let u := s.timerAt τ
  let T := u.runningBoundary o
  let F := (u.frameSource o).buildFrame u.cm
  have hsn : (f T).sn = { (u.beforeFrame o).sn with
      outstanding := (u.beforeFrame o).sn.outstanding.map Outstanding.sentFirst } :=
    (State.finish_keeps hf State.sn (fun _ _ _ => rfl) T).trans (State.runningBoundary_sn u o)
  have hcl : (f T).cl = { (u.afterLoss o).cl with sending := (u.framed o).cl.sending, captures := [] } :=
    (State.finish_keeps hf State.cl (fun _ _ _ => rfl) T).trans (State.runningBoundary_cl u o)
  have hframe : (f T).cl.sending = some F := by rw [hcl]; exact State.framed_sending u o
  have hpairing : (f T).bi.pairing = none :=
    (State.finish_keeps hf (fun v => v.bi.pairing) (fun _ _ _ => rfl) T).trans (State.runningBoundary_pairing u o)
  have hnumber : F.number = (f T).ft.frameNumber := by
    have hframed : F.number = (u.beforeFrame o).ft.frameNumber :=
      State.frameSource_keeps u o (fun v => v.ft.frameNumber) fun _ _ _ => rfl
    have hticked : (f T).ft.frameNumber = T.ft.frameNumber := by
      have h := congrArg FrameTimer.frameNumber (hft T)
      exact h
    rw [hframed, hticked, State.runningBoundary_ft, frame_ft (frame_beforeFrame u o), countAll_ft]
  have hfrole : F.role = r := by
    have hsource : (u.frameSource o).cl.role = some r :=
      (State.frameSource_keeps u o (fun v => v.cl.role) fun _ _ _ => rfl).trans ((State.beforeFrame_role u o).trans hrole)
    show (u.frameSource o).cl.role.getD _ = r
    rw [hsource]
    rfl
  have hnotice : F.notice = (u.beforeFrame o).noticeField :=
    State.frameSource_keeps u o State.noticeField fun _ _ _ => rfl
  have hreply : F.reply = (u.beforeFrame o).sn.peer.map fun p => ⟨p.number, p.reply⟩ :=
    State.frameSource_keeps u o State.replyField fun _ _ _ => rfl
  have hsent {n : Outstanding} (h : (f T).sn.outstanding = some n) : F.notice =
      ⟨some n.kind, n.number, n.slot, n.label, BitVec.ofNat 8 n.countdown⟩ := by
    rw [hsn] at h
    obtain ⟨m, hm, rfl⟩ := Option.map_eq_some_iff.mp h
    rw [hnotice, State.noticeField_some hm]
    unfold Outstanding.sentFirst
    split <;> rfl
  obtain ⟨hslots, hlasts, hlast⟩ := State.frameRecords_order (u.frameSource o) u.cm
  refine ⟨f T, F, hexec, hframe, by rw [hcl], hpairing, hnumber, hfrole, fun h => ?_, fun n h => hsent h, ?_,
    fun h hnone => ?_, fun n h hkind => ?_, fun c rest h hfirst => ⟨fun n l hqueue hphase hlabel hfree hbelow => ?_,
      fun n hqueue hslot hlost => ?_, fun n hqueue hslot => ?_⟩, fun hlost => ?_, fun hlost => ?_, hslots, hlasts, hlast⟩
  · rw [hsn] at h
    rw [hnotice]
    exact State.noticeField_none (Option.map_eq_none_iff.mp h)
  · rw [hsn]
    exact hreply
  · rw [hnotice]
    exact State.noticeField_none (State.beforeFrame_outstanding_none (s := u) h hnone)
  · rw [hnotice]
    have hout := State.beforeFrame_outstanding_some (s := u) h hkind
    exact (State.noticeField_some hout).trans rfl
  · exact hnotice.trans (State.noticeField_of_join (s := u) h hfirst hqueue hphase hlabel hfree hbelow)
  · exact hnotice.trans (State.noticeField_of_cut (s := u) h hfirst hqueue hslot hlost)
  · exact hnotice.trans (State.noticeField_of_leave (s := u) h hfirst hqueue hslot)
  · rw [hreply, State.beforeFrame_peer_of_not (s := u) hlost]
    rfl
  · rw [hreply, State.beforeFrame_peer_of_lost (s := u) hlost]
    rfl

end Sys2Proof.Machine
end

section
/-! SUPPORT. The records of a boundary's frame (R15, R68 to R70), and the statement that they settle. -/

namespace Sys2Proof

/-- In a map in ascending order of key, an entry is the one found. -/
theorem Assoc.find_of_mem {n : Nat} {α : Type} {m : Assoc (Fin n) α} (h : (keys m).Pairwise (· < ·)) {k : Fin n} {v : α}
    (hmem : (k, v) ∈ m) : find m k = some v := by
  induction m with
  | nil => cases hmem
  | cons p t ih =>
    obtain ⟨j, w⟩ := p
    obtain ⟨habove, ht⟩ := List.pairwise_cons.mp h
    rw [find_cons]
    obtain heq | hmem := List.mem_cons.mp hmem
    · cases heq
      rw [if_pos rfl]
    · have hfound := ih ht hmem
      rw [if_neg (Fin.ne_of_lt (habove k (mem_keys_of_find hfound))), hfound]

namespace Machine

theorem mem_markLast {l : List SlotRecord} {y : SlotRecord} (h : y ∈ l) :
    ∃ x ∈ markLast l, { x with last := y.last } = y := by
  induction l with
  | nil => cases h
  | cons r t ih =>
    cases t with
    | nil =>
      rw [List.mem_singleton.mp h]
      exact ⟨_, List.mem_singleton.mpr rfl, rfl⟩
    | cons r' t =>
      obtain rfl | h := List.mem_cons.mp h
      · exact ⟨y, List.mem_cons_self, rfl⟩
      · obtain ⟨x, hx, hxy⟩ := ih h
        exact ⟨x, List.mem_cons_of_mem _ hx, hxy⟩

theorem of_mem_markLast {l : List SlotRecord} {x : SlotRecord} (h : x ∈ markLast l) : ∃ y ∈ l, y.slot = x.slot := by
  have hslot : x.slot ∈ (markLast l).map SlotRecord.slot := List.mem_map_of_mem h
  rw [markLast_slots] at hslot
  exact List.mem_map.mp hslot

namespace State

/-- The ended frame's record of a channel gives a slot record for this slot (R69). -/
def gives (u : State) (old : Channel × ChannelRecord) (n : SlotNo) : Prop :=
  old.2.active.tap ≠ .none ∧ (u.channel old.1).slot = some n

/-- The slot record that it gives. -/
def given (u : State) (old : Channel × ChannelRecord) (n : SlotNo) : SlotRecord :=
  u.recordFor old.1 n (decide (old.2.active.tap = .live))

section
variable {u : State} {old : Channel × ChannelRecord} {n : SlotNo}

theorem addRecord_of_gives (acc : Assoc SlotNo SlotRecord) (h : u.gives old n) :
    u.addRecord acc old = Assoc.put acc n (u.given old n) := by
  obtain ⟨htap, hslot⟩ := h
  unfold addRecord given
  rw [hslot]
  cases hold : old.2.active.tap with
  | none => exact absurd hold htap
  | shadow => rfl
  | live => rfl

theorem find_addRecord_of_not (acc : Assoc SlotNo SlotRecord) (h : ¬ u.gives old n) :
    Assoc.find (u.addRecord acc old) n = Assoc.find acc n := by
  unfold gives at h
  unfold addRecord
  split
  · rfl
  · rfl
  next m htap hslot =>
    exact Assoc.find_put_other _ _ fun e => h ⟨by rw [htap]; exact Tap.noConfusion, by rw [hslot, e]⟩
  next m htap hslot =>
    exact Assoc.find_put_other _ _ fun e => h ⟨by rw [htap]; exact Tap.noConfusion, by rw [hslot, e]⟩

/-- What the records of a frame hold for a slot: that of one that gives it, if any does. -/
theorem find_addRecords (l : Assoc Channel ChannelRecord) (acc : Assoc SlotNo SlotRecord) :
    (∃ old ∈ l, u.gives old n ∧ Assoc.find (l.foldl u.addRecord acc) n = some (u.given old n)) ∨
    (∀ old ∈ l, ¬ u.gives old n) ∧ Assoc.find (l.foldl u.addRecord acc) n = Assoc.find acc n := by
  induction l generalizing acc with
  | nil => exact .inr ⟨fun _ h => absurd h List.not_mem_nil, rfl⟩
  | cons old l ih =>
    obtain ⟨old', hmem, hgives, hfind⟩ | ⟨hnone, hfind⟩ := ih (u.addRecord acc old)
    · exact .inl ⟨old', List.mem_cons_of_mem _ hmem, hgives, hfind⟩
    · by_cases hold : u.gives old n
      · refine .inl ⟨old, List.mem_cons_self, hold, hfind.trans ?_⟩
        rw [addRecord_of_gives acc hold]
        exact Assoc.find_put_same _ _ _
      · refine .inr ⟨fun x hx => (List.mem_cons.mp hx).elim (fun e => e ▸ hold) (hnone x), hfind.trans ?_⟩
        exact find_addRecord_of_not acc hold

/-- Every record of a frame is given by a channel, for its slot. -/
theorem gives_of_mem_frameRecords {ended : Assoc Channel ChannelRecord} {x : SlotRecord}
    (h : x ∈ u.frameRecords ended) : ∃ old ∈ ended, u.gives old x.slot := by
  have hgathered : Gathered (ended.foldl u.addRecord []) := gathered_nil.fold ended
  obtain ⟨y, hy, hslot⟩ := of_mem_markLast h
  obtain ⟨⟨m, z⟩, hp, rfl⟩ := List.mem_map.mp hy
  have hz : z.slot = m := (hgathered.entries _ hp).1
  have hfound := Assoc.find_of_mem hgathered.order hp
  obtain ⟨old, hold, hgives, -⟩ | ⟨-, hnone⟩ := find_addRecords (u := u) (n := m) ended []
  · exact ⟨old, hold, by rw [← hslot]; exact hz.symm ▸ hgives⟩
  · exact absurd (hfound.symm.trans hnone) nofun

/-- A channel that alone gives a record for its slot finds it in the frame, but for LAST. -/
theorem mem_frameRecords_of_gives {ended : Assoc Channel ChannelRecord} (hmem : old ∈ ended) (hgives : u.gives old n)
    (hsingle : ∀ old' ∈ ended, u.gives old' n → old' = old) :
    ∃ x ∈ u.frameRecords ended, { x with last := false } = u.given old n := by
  obtain ⟨old', hmem', hgives', hfind⟩ | ⟨hnone, -⟩ := find_addRecords (u := u) (n := n) ended []
  · rw [hsingle old' hmem' hgives'] at hfind
    have hvalue : u.given old n ∈ (ended.foldl u.addRecord []).map Prod.snd :=
      List.mem_map.mpr ⟨_, Assoc.mem_of_find hfind, rfl⟩
    obtain ⟨x, hx, heq⟩ := mem_markLast hvalue
    have hlast : (u.given old n).last = false := (recordFor_slot u _ _ _).2
    rw [hlast] at heq
    exact ⟨x, hx, heq⟩
  · exact absurd hgives (hnone old hmem)

end

/-! ## What the records are made from -/

section
variable {s : State} {o : BoundaryOrder}

theorem frameSource_channel (c : Channel) : (s.frameSource o).channel c = (s.beforeFrame o).channel c :=
  frameSource_keeps s o (fun u => u.channel c) fun _ _ _ => rfl

theorem beforeFrame_idle (c : Channel) : ((s.beforeFrame o).channel c).idle = (s.channel c).idle :=
  (((noticed_beforeFrame s o).record c).idle_eq).trans (afterLoss_idle c)

theorem beforeFrame_slotOf {c : Channel} (h : o.noticeFirst = false ∨
    ⟨.join, c⟩ ∉ s.sn.queue ∧ (s.channel c).phase ≠ .enrolled) : ((s.beforeFrame o).channel c).slot = (s.channel c).slot := by
  refine (?_ : _ = ((s.afterLoss o).channel c).slot).trans (afterLoss_slotOf c)
  obtain h | ⟨hqueued, hphase⟩ := h
  · rw [beforeFrame_of_not h]
  · refine congrArg ChannelRecord.slot ((noticed_beforeFrame s o).named c fun hmem => ?_)
    obtain ⟨p, l, -, hjoins, -, hqueue, -⟩ := afterLoss_requests s o
    rw [hqueue] at hmem
    obtain hmem | hmem := List.mem_append.mp (List.mem_filter.mp hmem).1
    · exact hqueued hmem
    · exact hphase (hjoins _ hmem).2

theorem beforeFrame_captures : (s.beforeFrame o).cl.captures = s.cl.captures :=
  (congrArg (fun u => u.cl.captures) (frame_beforeFrame s o)).trans (congrArg (·.captures) (countAll_cl s))

theorem beforeFrame_pairing : (s.beforeFrame o).bi.pairing = s.bi.pairing :=
  (frame_pairing (frame_beforeFrame s o)).trans (countAll_pairing s)

/-- A wanted capture of an open pairing, taken into the frame of its boundary, is that of its channel (R15, R68). -/
def breaksFor (s : State) (o : BoundaryOrder) (c : Channel) : Prop :=
  o.captureFirst = true ∧ ∃ q, s.bi.pairing = some q ∧ q.wanted = true ∧ q.channel = c

theorem frameSource_capture_of_not {c : Channel} (h : ¬ s.breaksFor o c) :
    Assoc.find (s.frameSource o).cl.captures c = Assoc.find s.cl.captures c := by
  rw [← beforeFrame_captures (s := s) (o := o)]
  unfold frameSource early
  split
  next hfirst =>
    unfold breakPairing
    split
    · rfl
    next q hq =>
      split
      next hwanted =>
        rw [beforeFrame_pairing] at hq
        exact Assoc.find_put_other _ _ fun e => h ⟨hfirst, q, hq, hwanted, e.symm⟩
      · rfl
  · rfl

theorem frameSource_capture_of_broken {c : Channel} {q : Pairing} {p : Pattern} (hfirst : o.captureFirst = true)
    (hq : s.bi.pairing = some q) (hwanted : q.wanted = true) (hc : q.channel = c) (hidle : (s.channel c).idle = some p) :
    Assoc.find (s.frameSource o).cl.captures c = some ⟨q.supervision ++ p.extractLsb' 0 8, true⟩ := by
  subst hc
  unfold frameSource early
  rw [if_pos hfirst]
  unfold breakPairing
  rw [beforeFrame_pairing, hq]
  dsimp only
  rw [if_pos hwanted, idleOf_of_some ((beforeFrame_idle _).trans hidle)]
  exact Assoc.find_put_same _ _ _

theorem recordFor_of_capture {u : State} {c : Channel} {y : Capture} (n : SlotNo) (live : Bool)
    (h : Assoc.find u.cl.captures c = some y) : u.recordFor c n live = ⟨n, y.word, live, y.damaged, false⟩ := by
  unfold recordFor
  rw [h]

theorem recordFor_of_none {u : State} {c : Channel} (n : SlotNo) (live : Bool)
    (h : Assoc.find u.cl.captures c = none) : u.recordFor c n live = ⟨n, u.idleOf c, live, true, false⟩ := by
  unfold recordFor
  rw [h]

theorem recordFor_live (u : State) (c : Channel) (n : SlotNo) (live : Bool) : (u.recordFor c n live).live = live := by
  unfold recordFor
  split <;> rfl

theorem runningBoundary_channel (s : State) (o : BoundaryOrder) (c : Channel) :
    ((s.beforeFrame o).channel c).Carried ((s.runningBoundary o).channel c) := by
  rw [← framed_channel s o c]
  exact (Carried.carryAll (s.framed o)).record c

theorem mem_cm_of_tap {c : Channel} (h : (s.channel c).active.tap ≠ .none) : (c, s.channel c) ∈ s.cm := by
  unfold channel at h ⊢
  cases hfind : Assoc.find s.cm c with
  | none =>
    rw [hfind] at h
    exact absurd rfl h
  | some r => exact Assoc.mem_of_find hfind

end

end State

/-- Settles O19: a channel's record by `mem_frameRecords_of_gives`, its word by the capture that the frame is built from. -/
theorem frameCarriesARecordForEachTappedChannel : Obligations.FrameCarriesARecordForEachTappedChannel := by
  intro i o s hsteady hsending hboundary horder broken
  obtain ⟨τ, f, hf, hexec⟩ := State.exec_steady_boundary hsteady hsending hboundary
  let u := s.timerAt τ
  let T := u.runningBoundary o
  let v := u.frameSource o
  have hcl : (f T).cl = { (u.afterLoss o).cl with sending := (u.framed o).cl.sending, captures := [] } :=
    (State.finish_keeps hf State.cl (fun _ _ _ => rfl) T).trans (State.runningBoundary_cl u o)
  have hpairing : (f T).bi.pairing = none :=
    (State.finish_keeps hf (fun w => w.bi.pairing) (fun _ _ _ => rfl) T).trans (State.runningBoundary_pairing u o)
  have hslotOf (c : Channel) : ((f T).channel c).slot = (v.channel c).slot := by
    rw [State.finish_keeps hf (fun w => w.channel c) (fun _ _ _ => rfl) T,
      (State.runningBoundary_channel u o c).slot_eq]
    exact congrArg ChannelRecord.slot (State.frameSource_channel c).symm
  have hidleOf {c : Channel} {p : Pattern} (h : (s.channel c).idle = some p) : v.idleOf c = p :=
    idleOf_of_some ((congrArg ChannelRecord.idle (State.frameSource_channel c)).trans
      ((State.beforeFrame_idle (s := u) c).trans h))
  have hmap {old : Channel × ChannelRecord} (h : old ∈ s.cm) : s.channel old.1 = old.2 := by
    unfold State.channel
    rw [Assoc.find_of_mem horder h]
    rfl
  refine ⟨f T, v.buildFrame u.cm, hexec, by rw [hcl]; exact State.framed_sending u o, hpairing, by rw [hcl], fun c hc => ?_,
    fun hsingle => ⟨fun c n htap hslot => ?_, fun x hx => ?_⟩⟩
  · refine ((hslotOf c).trans (congrArg ChannelRecord.slot (State.frameSource_channel c))).trans ?_
    exact State.beforeFrame_slotOf (s := u) hc
  · have hgives : v.gives (c, s.channel c) n := ⟨htap, (hslotOf c).symm.trans hslot⟩
    have hone (old : Channel × ChannelRecord) (hmem : old ∈ s.cm) (hold : v.gives old n) : old = (c, s.channel c) := by
      have hrecord := hmap hmem
      have hc : old.1 = c := hsingle old.1 c n (by rw [hrecord]; exact hold.1) htap ((hslotOf _).trans hold.2) hslot
      exact Prod.ext hc (by rw [← hrecord, hc])
    obtain ⟨x, hx, heq⟩ := State.mem_frameRecords_of_gives (State.mem_cm_of_tap htap) hgives hone
    have hfields {y : SlotRecord} (h : v.given (c, s.channel c) n = y) : x.word = y.word ∧ x.damaged = y.damaged := by
      have hword := congrArg SlotRecord.word (heq.trans h)
      have hdamaged := congrArg SlotRecord.damaged (heq.trans h)
      exact ⟨hword, hdamaged⟩
    refine ⟨x, hx, ?_, ?_, fun y hnot hy => ?_, fun p hnot hnone hp => ?_, fun q p hbroken hq hp => ?_⟩
    · exact (congrArg SlotRecord.slot heq).trans (State.recordFor_slot v _ _ _).1
    · have hlive : x.live = decide ((s.channel c).active.tap = .live) :=
        (congrArg SlotRecord.live heq).trans (State.recordFor_live v _ _ _)
      rw [hlive, decide_eq_true_iff]
    · exact hfields (State.recordFor_of_capture n _ ((State.frameSource_capture_of_not (s := u) hnot).trans hy))
    · obtain ⟨hword, hdamaged⟩ := hfields
        (State.recordFor_of_none n _ ((State.frameSource_capture_of_not (s := u) hnot).trans hnone))
      exact ⟨hword.trans (hidleOf hp), hdamaged⟩
    · obtain ⟨hfirst, q', hq', hwanted, hc⟩ := hbroken
      obtain rfl := Option.some.inj (hq.symm.trans hq')
      exact hfields (State.recordFor_of_capture n _
        (State.frameSource_capture_of_broken (s := u) hfirst hq hwanted hc hp))
  · obtain ⟨old, hmem, htap, hslot⟩ := State.gives_of_mem_frameRecords hx
    refine ⟨old.1, ?_, (hslotOf _).trans hslot⟩
    rw [hmap hmem]
    exact htap

end Machine
end Sys2Proof
end

section
/-! SUPPORT. The slots, the schedules, the outstanding notice and PAUSE over a boundary (R76, R87, R88, R91, R93, R96, R99,
R104, R148), and the statement that they settle. -/

namespace Sys2Proof

namespace Assoc

variable {n : Nat} {α : Type}

theorem find_filter_of_none {m : Assoc (Fin n) α} (p : Fin n × α → Bool) {k : Fin n} (h : find m k = none) :
    find (m.filter p) k = none := by
  induction m with
  | nil => rfl
  | cons q t ih =>
    obtain ⟨j, v⟩ := q
    rw [find_cons] at h
    split at h
    · cases h
    next hne =>
      rw [List.filter_cons]
      split
      · rw [find_cons, if_neg hne]
        exact ih h
      · exact ih h

theorem find_none_of_lt {m : Assoc (Fin n) α} {k : Fin n} (h : ∀ j ∈ keys m, k < j) : find m k = none :=
  find_of_not_mem_keys fun hk => Fin.lt_irrefl _ (h k hk)

/-- What is found among the entries that pass a test, in a map in ascending order of key. -/
theorem find_filter {m : Assoc (Fin n) α} (p : Fin n × α → Bool) (h : (keys m).Pairwise (· < ·)) (k : Fin n) :
    find (m.filter p) k = (find m k).filter fun v => p (k, v) := by
  induction m with
  | nil => rfl
  | cons q t ih =>
    obtain ⟨j, v⟩ := q
    obtain ⟨habove, ht⟩ := List.pairwise_cons.mp h
    rw [List.filter_cons, find_cons]
    by_cases hj : j = k
    · subst hj
      have hnone : find t j = none := find_none_of_lt habove
      rw [if_pos rfl]
      by_cases hp : p (j, v) = true
      · rw [if_pos hp, find_cons, if_pos rfl]
        exact (if_pos hp).symm
      · rw [if_neg hp, find_filter_of_none p hnone]
        exact (if_neg hp).symm
    · rw [if_neg hj]
      by_cases hp : p (j, v) = true
      · rw [if_pos hp, find_cons, if_neg hj, ih ht]
      · rw [if_neg hp, ih ht]

end Assoc

namespace Machine

/-- The hold count of a slot in use after a boundary (R88). -/
theorem SlotEntry.boundary_eq (e : SlotEntry) : e.boundary = { e with
    visible := e.latch
    latch := none
    holdCount := if e.state = .reserved ∨ e.state = .held ∨ e.state = .releasing then
      if (goodArrival e.latch).isSome = true then 0 else min 65535 (e.holdCount + 1) else e.holdCount
    barClock := if e.state = .barred then e.barClock - 1 else e.barClock } := by
  unfold boundary inUse
  cases h : e.state <;> simp

theorem holdCount_of_latch (a : Option Arrival) (n : Nat) :
    (if (goodArrival a).isSome = true then 0 else min 65535 (n + 1)) =
      match a with
      | some a => if a.damaged = true then min 65535 (n + 1) else 0
      | none => min 65535 (n + 1) := by
  cases a with
  | none => rfl
  | some a =>
    unfold goodArrival
    by_cases h : a.damaged = true <;> simp [h]

theorem SlotEntry.inUse_iff_state (e : SlotEntry) :
    e.inUse = true ↔ e.state = .reserved ∨ e.state = .held ∨ e.state = .releasing := by
  unfold inUse
  cases e.state <;> simp

theorem SlotEntry.inUse_of_state {e e' : SlotEntry} (h : e'.state = e.state) : e'.inUse = e.inUse := by
  unfold inUse
  rw [h]

namespace State

section
variable {s : State} {o : BoundaryOrder}

theorem find_slots_of_state {n : SlotNo} (h : (s.slot n).state ≠ .free) : Assoc.find s.sn.slots n = some (s.slot n) := by
  unfold slot at h ⊢
  cases hfind : Assoc.find s.sn.slots n with
  | none =>
    rw [hfind] at h
    exact absurd rfl h
  | some e => rfl

theorem find_slots_of_follow {n : SlotNo} (h : (s.slot n).followDue = true) : Assoc.find s.sn.slots n = some (s.slot n) := by
  unfold slot at h ⊢
  cases hfind : Assoc.find s.sn.slots n with
  | none =>
    rw [hfind] at h
    cases h
  | some e => rfl

/-! ## The steps that a boundary leaves due -/

theorem mem_due_of_bars {d : Due} (h : d ∈ barsOver s.countAll.sn.slots) : d ∈ (s.runningBoundary o).due := by
  rw [runningBoundary_due]
  simp only [List.mem_append, h, true_or, or_true]

theorem mem_due_of_follows {d : Due} (h : d ∈ followsDue s.sn.slots) : d ∈ (s.runningBoundary o).due := by
  rw [runningBoundary_due]
  simp only [List.mem_append, h, true_or, or_true]

theorem mem_due_of_cuts {d : Due} (h : d ∈ cutsDue s.sn.schedules) : d ∈ (s.runningBoundary o).due := by
  rw [runningBoundary_due]
  simp only [List.mem_append, h, true_or]

theorem mem_due_of_retry (h : s.pauseStep.2 = true) : .reinstatementRetry ∈ (s.runningBoundary o).due := by
  rw [runningBoundary_due, if_pos h]
  exact List.mem_append_right _ (List.mem_singleton.mpr rfl)

theorem mem_due_of_notice (h : o.noticeFirst = false) : .noticeOutstanding ∈ (s.runningBoundary o).due := by
  rw [runningBoundary_due, h]
  have hmem : Due.noticeOutstanding ∈ lateDue false [.noticeOutstanding] := List.mem_singleton.mpr rfl
  simp only [List.mem_append, hmem, true_or, or_true]

theorem mem_due_of_assign (h : o.assignFirst = false) : .contextAssign ∈ (s.runningBoundary o).due := by
  rw [runningBoundary_due, h]
  have hmem : Due.contextAssign ∈ lateDue false [.contextAssign] := List.mem_singleton.mpr rfl
  simp only [List.mem_append, hmem, true_or, or_true]

theorem barClockExpiry_of_barred {n : SlotNo} (h : (s.slot n).state = .barred) (hclock : (s.slot n).barClock = 1) :
    .barClockExpiry n ∈ barsOver s.countAll.sn.slots := by
  have hstate : (s.countAll.slot n).state = .barred := by rw [countAll_slot, SlotEntry.boundary_state, h]
  have hover : (s.countAll.slot n).barClock = 0 := by
    rw [countAll_slot, SlotEntry.boundary_eq]
    show (if (s.slot n).state = .barred then (s.slot n).barClock - 1 else _) = 0
    rw [if_pos h, hclock]
  have hfind := find_slots_of_state (s := s.countAll) (n := n) (by rw [hstate]; exact SlotState.noConfusion)
  refine List.mem_map.mpr ⟨(n, s.countAll.slot n), List.mem_filter.mpr ⟨Assoc.mem_of_find hfind, ?_⟩, rfl⟩
  simp [hstate, hover]

theorem followCut_of_mark {n : SlotNo} {c : Channel} (h : (s.slot n).followDue = true) (hc : (s.slot n).channel = some c) :
    .followCut c n ∈ followsDue s.sn.slots := by
  refine List.mem_filterMap.mpr ⟨(n, s.slot n), Assoc.mem_of_find (find_slots_of_follow h), ?_⟩
  dsimp only
  rw [if_pos h, hc]
  rfl

theorem cutDue_of_schedule {c : Channel} {x : Schedule} (h : Assoc.find s.sn.schedules c = some x) (hgo : x.toGo ≤ 1) :
    .cutDue c x.slot ∈ cutsDue s.sn.schedules :=
  List.mem_map.mpr ⟨(c, x), List.mem_filter.mpr ⟨Assoc.mem_of_find h, decide_eq_true hgo⟩, rfl⟩

/-! ## Slots -/

/-- Where the blocks agree and no notice is outstanding, the early steps before SN's test leave the state tidy. -/
theorem tidy_afterLoss (h : s.consistent) (hout : (s.afterLoss o).sn.outstanding = none) : (s.afterLoss o).Tidy := by
  obtain ⟨hfields, -, -, hslots, -⟩ := h
  refine ⟨fun c hphase => ?_, fun c n hn => ?_⟩
  · rw [afterLoss_slotOf]
    have hjoining : ((s.afterAssign o).channel c).phase = .joining := by
      by_cases hlost : s.losesFirst o
      · rw [(carrierGone_afterLoss hlost).record c] at hphase
        exact ChannelRecord.lost_joining.mp hphase
      · rw [afterLoss_of_not hlost] at hphase
        exact hphase
    have hrecord := (assigned_afterAssign s o).record c
    rw [countAll_channel] at hrecord
    obtain ⟨-, -, -, hslotOfJoining, hslotOfEnrolled, -⟩ := hfields c
    have hcases : (s.channel c).phase = .joining ∨ (s.channel c).phase = .enrolled := by
      generalize (s.afterAssign o).channel c = r at hrecord hjoining
      cases hrecord with
      | kept => exact .inl hjoining
      | joins k _ henrolled => exact .inr henrolled
      | watches => cases hjoining
    obtain hphase | hphase := hcases
    · refine Classical.byContradiction fun hne => ?_
      obtain ⟨n, hn, hkind, -⟩ := (hslotOfJoining hphase).mp hne
      have hsome := afterLoss_outstanding_some (o := o) hn (.inr (by rw [hkind]; exact NoticeKind.noConfusion))
      rw [hout] at hsome
      cases hsome
    · exact hslotOfEnrolled (.inr hphase)
  · rw [afterLoss_slotOf] at hn
    rw [SlotEntry.inUse_of_state (afterLoss_slot_state n)]
    exact ((hslots.1 c n).mp hn).1

theorem slotsSettled_beforeFrame (h : o.noticeFirst = false ∨ s.consistent) :
    slotsSettled (s.afterLoss o) (s.beforeFrame o) := by
  refine slotsSettled_makeOutstanding o.noticeFirst (h.imp id fun hc => ?_)
  by_cases hout : (s.afterLoss o).sn.outstanding = none
  · exact .inr (tidy_afterLoss hc hout)
  · exact .inl hout

theorem runningBoundary_slot (s : State) (o : BoundaryOrder) (n : SlotNo) :
    (s.runningBoundary o).slot n = (s.beforeFrame o).slot n := by
  have hslots : (s.runningBoundary o).sn.slots = (s.beforeFrame o).sn.slots :=
    (congrArg SlotTable.slots (runningBoundary_sn s o)).trans rfl
  exact slot_of_slots hslots n

/-! ## Schedules, PAUSE and the outstanding notice -/

theorem find_stepSchedules {m : Assoc Channel Schedule} (h : (Assoc.keys m).Pairwise (· < ·)) {c : Channel} {x : Schedule}
    (hx : Assoc.find m c = some x) :
    Assoc.find (stepSchedules m) c = if x.toGo ≤ 1 then none else some ⟨x.slot, x.toGo - 1⟩ := by
  unfold stepSchedules
  rw [Assoc.find_mapValues, Assoc.find_filter _ h, hx]
  by_cases hgo : x.toGo ≤ 1
  · rw [if_pos hgo]
    simp [hgo]
  · rw [if_neg hgo, Option.filter_some, if_pos (decide_eq_true (Nat.lt_of_not_le hgo))]
    rfl

theorem find_stepSchedules_of_none {m : Assoc Channel Schedule} {c : Channel} (h : Assoc.find m c = none) :
    Assoc.find (stepSchedules m) c = none := by
  unfold stepSchedules
  rw [Assoc.find_mapValues, Assoc.find_filter_of_none _ h]
  rfl

theorem afterAssign_schedules : (s.afterAssign o).sn.schedules = stepSchedules s.sn.schedules :=
  ((assigned_afterAssign s o).keeps (fun u => u.sn.schedules) fun _ _ _ _ => rfl).trans
    (congrArg (·.schedules) (countAll_sn s))

theorem runningBoundary_schedules : (s.runningBoundary o).sn.schedules = (s.afterLoss o).sn.schedules :=
  (congrArg (·.schedules) (runningBoundary_sn s o)).trans
    ((noticed_beforeFrame s o).keeps (fun u => u.sn.schedules) fun _ _ _ _ _ _ _ _ => rfl)

theorem schedules_of_not (hlost : ¬ s.losesFirst o) : (s.runningBoundary o).sn.schedules = stepSchedules s.sn.schedules := by
  rw [runningBoundary_schedules, afterLoss_of_not hlost, afterAssign_schedules]

theorem schedules_of_lost (hlost : s.losesFirst o) (c : Channel) : Assoc.find (s.runningBoundary o).sn.schedules c =
    if ((s.afterAssign o).channel c).phase = .cutting then none else Assoc.find (stepSchedules s.sn.schedules) c := by
  rw [runningBoundary_schedules, (carrierGone_afterLoss hlost).schedules c, afterAssign_schedules]

theorem schedule_none {c : Channel} (h : Assoc.find s.sn.schedules c = none) :
    Assoc.find (s.runningBoundary o).sn.schedules c = none := by
  by_cases hlost : s.losesFirst o
  · rw [schedules_of_lost hlost, find_stepSchedules_of_none h, ite_self]
  · rw [schedules_of_not hlost, find_stepSchedules_of_none h]

theorem afterAssign_cutting {c : Channel} (h : (s.channel c).phase = .cutting) :
    ((s.afterAssign o).channel c).phase = .cutting := by
  rw [afterAssign_channel (.inr (by rw [h]; exact ⟨Phase.noConfusion, Phase.noConfusion⟩))]
  exact h

/-- A carrier loss withdraws the outstanding CUT of a CUTTING channel (R40). -/
theorem afterLoss_outstanding_cut {n : Outstanding} (hlost : s.losesFirst o) (h : s.sn.outstanding = some n)
    (hkind : n.kind = .cut) (hphase : (s.channel n.channel).phase = .cutting) : (s.afterLoss o).sn.outstanding = none := by
  obtain ⟨p, hp, hcuts⟩ := (carrierGone_afterLoss hlost).requests
  have hout : (s.afterAssign o).sn.outstanding = some n.boundary :=
    ((assigned_afterAssign s o).keeps (fun u => u.sn.outstanding) fun _ _ _ _ => rfl).trans
      ((congrArg (·.outstanding) (countAll_sn s)).trans (by rw [h]; rfl))
  have hfalse : p ⟨n.boundary.kind, n.boundary.channel⟩ = false := by
    show p ⟨n.kind, n.channel⟩ = false
    rw [hkind]
    exact hcuts _ (afterAssign_cutting hphase)
  rw [hp.outstanding, hout]
  simp [hfalse]

theorem beforeFrame_sc : (s.beforeFrame o).sc = { s.sc with flight := s.sc.flight.map Flight.waited } := by
  rw [(noticed_beforeFrame s o).keeps State.sc fun _ _ _ _ _ _ _ _ => rfl]
  refine Eq.trans ?_ (((assigned_afterAssign s o).keeps State.sc fun _ _ _ _ => rfl).trans (countAll_sc s))
  by_cases hlost : s.losesFirst o
  · have h := congrArg State.sc (carrierGone_afterLoss hlost).rest
    exact h
  · rw [afterLoss_of_not hlost]

theorem runningBoundary_sc : (s.runningBoundary o).sc = { s.sc with flight := s.sc.flight.map Flight.waited } :=
  (runningBoundary_keeps s o State.sc (fun _ _ _ _ _ _ => rfl) fun _ _ _ _ _ _ => rfl).trans beforeFrame_sc

end

end State

/-- Settles O16: the slots by `slotsSettled_beforeFrame`, the schedules by `schedules_of_not` and `schedules_of_lost`, the
outstanding notice by `beforeFrame_outstanding_some`, PAUSE by `runningBoundary_sc`. -/
theorem latchesBecomeVisibleAtTheBoundary : Obligations.LatchesBecomeVisibleAtTheBoundary := by
  intro i o s hsteady hsending hboundary
  obtain ⟨τ, f, hf, hexec⟩ := State.exec_steady_boundary hsteady hsending hboundary
  let u := s.timerAt τ
  let T := u.runningBoundary o
  have hsn : (f T).sn = T.sn := State.finish_keeps hf State.sn (fun _ _ _ => rfl) T
  have hdue {d : Due} (h : d ∈ T.due) : d ∈ (f T).due := by
    rw [State.finish_keeps hf State.due (fun _ _ _ => rfl) T]
    exact h
  have hslot (n : SlotNo) : (f T).slot n = (u.beforeFrame o).slot n :=
    (State.finish_keeps hf (fun v => v.slot n) (fun _ _ _ => rfl) T).trans (State.runningBoundary_slot u o n)
  have hafter {β : Type} (g : SlotEntry → β) (hg : ∀ e : SlotEntry, g e.linkLost = g e) (n : SlotNo) :
      g ((u.afterLoss o).slot n) = g (s.slot n).boundary := State.afterLoss_slot_keeps (s := u) g hg n
  refine ⟨f T, hexec, fun n => ?_, fun c x hx => ⟨fun hgo => hdue (State.mem_due_of_cuts (State.cutDue_of_schedule hx hgo)),
    fun hsingle hlost => ?_, fun hsingle hlost => ?_⟩, fun c hc => ?_, fun x hx => ⟨fun hkind => ?_,
      fun _ hconsistent hlost hkind hnotice => ?_⟩, fun r p m hflight => ⟨?_, fun hm => hdue (State.mem_due_of_retry ?_)⟩,
    fun h => hdue (State.mem_due_of_notice h), fun h => hdue (State.mem_due_of_assign h)⟩
  · intro e hold inUse
    obtain ⟨hvisible, hlatch⟩ := (State.noticed_beforeFrame u o).arrivals n
    have hboundary := SlotEntry.boundary_eq e
    rw [holdCount_of_latch] at hboundary
    refine ⟨?_, ?_, fun h => ?_, fun hnotice hlost => ?_, fun hbarred hclock => ?_, fun c hmark hc => ?_⟩
    · rw [hslot, hvisible, hafter SlotEntry.visible (fun _ => rfl), hboundary]
    · rw [hslot, hlatch, hafter SlotEntry.latch (fun _ => rfl), hboundary]
    · obtain ⟨hused, hbarred⟩ := State.slotsSettled_beforeFrame (s := u) (o := o) h n
      refine ⟨fun huse => ?_, fun hb => ?_⟩
      · have hinUse : ((u.afterLoss o).slot n).inUse = true :=
          (SlotEntry.inUse_of_state (State.afterLoss_slot_state (s := u) n)).trans ((SlotEntry.inUse_iff_state e).mpr huse)
        rw [hslot, (hused hinUse).2, hafter SlotEntry.holdCount (fun _ => rfl), hboundary]
        exact if_pos huse
      · rw [hslot, hbarred ((State.afterLoss_slot_state (s := u) n).trans hb), hafter SlotEntry.barClock (fun _ => rfl),
          hboundary]
        exact if_pos hb
    · rw [hslot, State.beforeFrame_of_not hnotice, State.afterLoss_slot_of_not (s := u) hlost]
      exact hboundary
    · exact hdue (State.mem_due_of_bars (s := u) (State.barClockExpiry_of_barred hbarred hclock))
    · exact hdue (State.mem_due_of_follows (s := u) (State.followCut_of_mark hmark hc))
  · rw [hsn, State.schedules_of_not (s := u) hlost]
    exact State.find_stepSchedules hsingle.1 hx
  · rw [hsn, State.schedules_of_lost (s := u) hlost, if_pos (State.afterAssign_cutting (s := u) (hsingle.2 c x hx).1)]
  · rw [hsn]
    exact State.schedule_none (s := u) hc
  · rw [hsn, State.runningBoundary_sn, State.beforeFrame_outstanding_some (s := u) hx hkind]
    unfold Outstanding.boundary
    cases x.firstSent <;> rfl
  · obtain ⟨-, -, -, -, hrequests, -⟩ := hconsistent
    have hmem : (⟨x.kind, x.channel⟩ : Request) ∈ s.requests := by
      unfold State.requests
      rw [hx]
      exact List.mem_cons_self
    have hphase := hrequests.2.1 _ hmem
    rw [hkind] at hphase
    rw [hsn, State.runningBoundary_sn, State.beforeFrame_of_not hnotice,
      State.afterLoss_outstanding_cut (s := u) hlost hx hkind hphase]
    rfl
  · rw [State.finish_keeps hf State.sc (fun _ _ _ => rfl) T, State.runningBoundary_sc,
      show u.sc.flight = some ⟨r, p, .pause (m + 1)⟩ from hflight]
    rfl
  · subst hm
    unfold State.pauseStep
    rw [show u.sc.flight = some ⟨r, p, .pause 1⟩ from hflight]
    rfl

end Machine
end Sys2Proof
end

section
/-! SUPPORT. The contexts over a boundary (R52, R54, R98, R113), and the statement that they settle. -/

namespace Sys2Proof.Machine

namespace State

section
variable {s : State} {o : BoundaryOrder}

/-! ## The counts of a context -/

theorem contextStep_ticked (s : State) (x : Context) : s.ticked.contextStep x = { x with
    delay := (s.ticked.pushed x.owner :: x.delay).take 16
    joinClock := if (s.channel x.owner).phase = .joining then min 65535 (x.joinClock + 1) else x.joinClock
    retryGap := if (s.channel x.owner).phase = .joining then x.retryGap - 1 else x.retryGap
    guardRemaining := if (s.channel x.owner).phase = .carried then x.guardRemaining - 1 else x.guardRemaining } := by
  unfold contextStep Context.count
  rw [show s.ticked.channel x.owner = s.channel x.owner from rfl]
  cases (s.channel x.owner).phase <;> rfl

theorem pushed_ticked (s : State) (c : Channel) : s.ticked.pushed c =
    match (s.channel c).slot with
    | none => none
    | some n =>
      match (s.slot n).latch with
      | none => none
      | some a => if a.damaged = true then none else some a.word := by
  unfold pushed
  rw [show s.ticked.channel c = s.channel c from rfl]
  cases (s.channel c).slot with
  | none => rfl
  | some n =>
    dsimp only
    rw [ticked_slot, SlotEntry.boundary_eq]
    exact goodArrival_eq _

/-! ## From stage to stage -/

theorem afterAssign_context {k : CtxNo} {x : Context} (h : s.context k = some x) :
    (s.afterAssign o).context k = some (s.ticked.contextStep x) :=
  (assigned_afterAssign s o).contexts k _ (by rw [countAll_context, h]; rfl)

theorem runningBoundary_context (s : State) (o : BoundaryOrder) (k : CtxNo) :
    (s.runningBoundary o).context k = (s.framed o).carryAll.context k := rfl

/-- A context that is owned before a boundary and after it. -/
theorem context_over_boundary {k : CtxNo} {x y : Context} (hx : s.context k = some x)
    (hy : (s.runningBoundary o).context k = some y) : ∃ z : Context, z.MarkedFrom y ∧
      (z = s.ticked.contextStep x ∨ s.losesFirst o ∧ z = (s.ticked.contextStep x).restart) := by
  obtain ⟨z, hz, hmarked⟩ := (Carried.carryAll (s.framed o)).context k y hy
  refine ⟨z, hmarked, ?_⟩
  rw [framed_context] at hz
  have hloss : (s.afterLoss o).context k = some z := by
    obtain h | ⟨h, -⟩ := (noticed_beforeFrame s o).context k
    · exact h.symm.trans hz
    · exact absurd (h.symm.trans hz) nofun
  have hassign := afterAssign_context (o := o) hx
  by_cases hlost : s.losesFirst o
  · obtain ⟨x', hx', hz'⟩ := (carrierGone_afterLoss hlost).context k z hloss
    obtain rfl := Option.some.inj (hassign.symm.trans hx')
    exact hz'.imp_right fun h => ⟨hlost, h⟩
  · rw [afterLoss_of_not hlost] at hloss
    exact .inl (Option.some.inj (hloss.symm.trans hassign))

/-- A channel CARRIED when the frame is built was so before the boundary, and no carrier loss was taken first. -/
theorem carried_beforeFrame {c : Channel} (h : ((s.beforeFrame o).channel c).phase = .carried) :
    ¬ s.losesFirst o ∧ (s.channel c).phase = .carried ∧ (s.beforeFrame o).channel c = (s.channel c).latchRoute := by
  have hnotice := (noticed_beforeFrame s o).record c
  have hloss : (s.beforeFrame o).channel c = (s.afterLoss o).channel c := by
    generalize (s.beforeFrame o).channel c = r at h hnotice
    cases hnotice with
    | kept => rfl
    | reserves n hphase => exact absurd (h.symm.trans hphase) Phase.noConfusion
    | ends hphase => cases h
  rw [hloss] at h ⊢
  by_cases hlost : s.losesFirst o
  · rw [(carrierGone_afterLoss hlost).record c] at h
    exact absurd h (ChannelRecord.lost_not_carried _)
  · rw [afterLoss_of_not hlost] at h ⊢
    have hassign := (assigned_afterAssign s o).record c
    rw [countAll_channel] at hassign
    have hsame : (s.afterAssign o).channel c = (s.channel c).latchRoute := by
      generalize (s.afterAssign o).channel c = r at h hassign
      cases hassign with
      | kept => rfl
      | joins => cases h
      | watches => cases h
    rw [hsame] at h
    exact ⟨hlost, h, hsame⟩

theorem channelsInOrder_afterAssign (h : s.channelsInOrder) : (s.afterAssign o).channelsInOrder :=
  (((Orderly.refl s).countAll).early o.assignFirst fun h => h.assignUpTo _).channels h

/-- A context of the state before is named by its owner alone, once the assignments are taken. -/
theorem owner_afterAssign {c : Channel} {k : CtxNo} {x : Context} (hnamed : s.contextsNamed) (hx : s.context k = some x)
    (hc : ((s.afterAssign o).channel c).context = some k) : c = x.owner := by
  obtain hsame | ⟨hfree, -⟩ := ((assigned_afterAssign s o).record c).context_of_some hc
  · rw [hsame, countAll_channel] at hc
    obtain ⟨x', hx', howner⟩ := (hnamed.2 c k).mp hc
    obtain rfl := Option.some.inj (hx.symm.trans hx')
    exact howner.symm
  · rw [countAll_context, hx] at hfree
    cases hfree

theorem lost_context_of_some {r : ChannelRecord} {k : CtxNo} (h : r.lost.context = some k) : r.context = some k := by
  obtain ⟨phase⟩ := r
  revert h
  cases phase
  case carried => exact nofun
  all_goals exact id

/-- The same when the frame is built. -/
theorem owner_afterLoss {c : Channel} {k : CtxNo} {x : Context} (hnamed : s.contextsNamed) (hx : s.context k = some x)
    (hc : ((s.afterLoss o).channel c).context = some k) : c = x.owner := by
  refine owner_afterAssign (o := o) hnamed hx ?_
  by_cases hlost : s.losesFirst o
  · rw [(carrierGone_afterLoss hlost).record c] at hc
    exact lost_context_of_some hc
  · rw [afterLoss_of_not hlost] at hc
    exact hc

theorem owner_beforeFrame {c : Channel} {k : CtxNo} {x : Context} (hnamed : s.contextsNamed) (hx : s.context k = some x)
    (hc : ((s.beforeFrame o).channel c).context = some k) : c = x.owner := by
  refine owner_afterLoss (o := o) hnamed hx ?_
  have hnotice := (noticed_beforeFrame s o).record c
  generalize (s.beforeFrame o).channel c = r at hc hnotice
  cases hnotice with
  | kept => exact hc
  | reserves n hphase => exact hc
  | ends hphase => cases hc

/-- The context of a channel that is proving stays over a boundary (R46, R62). -/
theorem context_kept {k : CtxNo} {x : Context} (horder : s.channelsInOrder) (hnamed : s.contextsNamed)
    (hx : s.context k = some x) (hphase : (s.channel x.owner).phase ∈ [.joining, .shadow, .proven, .cutting])
    (hnotice : o.noticeFirst = false ∨ (s.channel x.owner).phase ≠ .joining) :
    ∃ y, (s.runningBoundary o).context k = some y := by
  let c := x.owner
  have hk : (s.channel c).context = some k := (hnamed.2 c k).mpr ⟨x, hx, rfl⟩
  obtain ⟨hnotCarried, hassigned⟩ : (s.channel c).phase ≠ .carried ∧
      (s.channel c).phase ≠ .enrolled ∧ (s.channel c).phase ≠ .fallen := by
    simp only [List.mem_cons, List.not_mem_nil, or_false] at hphase
    obtain h | h | h | h := hphase <;> rw [h] <;> decide
  have hrecord : (s.afterAssign o).channel c = (s.channel c).latchRoute := afterAssign_channel (.inr hassigned)
  have hassign := afterAssign_context (o := o) hx
  obtain ⟨z, hz⟩ : ∃ z, (s.afterLoss o).context k = some z := by
    by_cases hlost : s.losesFirst o
    · rw [(carrierGone_afterLoss hlost).kept (channelsInOrder_afterAssign horder) c k _ (by rw [hrecord]; exact hk) hassign
        fun d hd => owner_afterAssign hnamed hx hd, hrecord]
      exact Context.lostIn_isSome hnotCarried
    · rw [afterLoss_of_not hlost]
      exact ⟨_, hassign⟩
  have hbefore : (s.beforeFrame o).context k = some z := by
    obtain hnotice | hnotice := hnotice
    · rw [beforeFrame_of_not hnotice, hz]
    · obtain h | ⟨-, d, hjoining, hd⟩ := (noticed_beforeFrame s o).context k
      · exact h.trans hz
      · obtain rfl : d = c := owner_afterLoss (o := o) hnamed hx hd
        refine absurd ?_ hnotice
        by_cases hlost : s.losesFirst o
        · rw [afterLoss_channel_of_lost hlost (.inr hassigned)] at hjoining
          exact (ChannelRecord.lost_joining (r := (s.channel c).latchRoute)).mp hjoining
        · rw [afterLoss_channel_of_not hlost (.inr hassigned)] at hjoining
          exact hjoining
  refine (Carried.carryAll (s.framed o)).kept k z (by rw [framed_context, hbefore]) fun d hd hcarried => ?_
  rw [framed_channel] at hd hcarried
  obtain rfl : d = c := owner_beforeFrame hnamed hx hd
  exact hnotCarried (carried_beforeFrame hcarried).2.1

/-! ## The steps that the contexts bring due -/

theorem mem_due_of_joins {d : Due} (h : d ∈ s.countAll.joinsOver) : d ∈ (s.runningBoundary o).due := by
  rw [runningBoundary_due]
  simp only [List.mem_append, h, true_or, or_true]

theorem mem_due_of_gaps {d : Due} (h : d ∈ s.gapsOver) : d ∈ (s.runningBoundary o).due := by
  rw [runningBoundary_due]
  simp only [List.mem_append, h, true_or, or_true]

theorem mem_due_of_guards {c : Channel} (h : c ∈ s.guardsOver) : .guardEnd c ∈ (s.runningBoundary o).due := by
  have hmem : Due.guardEnd c ∈ s.guardsOver.map Due.guardEnd := List.mem_map_of_mem h
  rw [runningBoundary_due]
  simp only [List.mem_append, hmem, true_or, or_true]

theorem joinTimeout_of_clock {k : CtxNo} {x : Context} (hx : s.context k = some x)
    (hphase : (s.channel x.owner).phase = .joining) (hclock : s.sc.params.joinWait ≤ min 65535 (x.joinClock + 1)) :
    .joinTimeout x.owner k ∈ s.countAll.joinsOver := by
  have hcontext : s.countAll.context k = some (s.ticked.contextStep x) := by
    rw [countAll_context, hx]
    rfl
  have hstep := contextStep_ticked s x
  rw [if_pos hphase] at hstep
  refine List.mem_filterMap.mpr ⟨(k, s.ticked.contextStep x), Assoc.mem_of_find hcontext, ?_⟩
  dsimp only
  rw [countAll_params, countAll_channel, hstep]
  exact if_pos ⟨hphase, hclock⟩

theorem retryGapEnd_of_gap {k : CtxNo} {x : Context} (hx : s.context k = some x)
    (hphase : (s.channel x.owner).phase = .joining) (hgap : x.retryGap = 1) : .retryGapEnd x.owner k ∈ s.gapsOver :=
  List.mem_filterMap.mpr ⟨(k, x), Assoc.mem_of_find hx, if_pos ⟨hphase, hgap⟩⟩

theorem mem_guardsOver {k : CtxNo} {x : Context} (hx : s.context k = some x)
    (hphase : (s.channel x.owner).phase = .carried) (hguard : x.guardRemaining = 1) : x.owner ∈ s.guardsOver :=
  List.mem_filterMap.mpr ⟨(k, x), Assoc.mem_of_find hx, if_pos ⟨hphase, hguard⟩⟩

end

end State

/-- Settles O17: a context over the boundary by `context_over_boundary` and `contextStep_ticked`. -/
theorem delayLinesArePushedAtTheBoundary : Obligations.DelayLinesArePushedAtTheBoundary := by
  intro i o s hsteady hsending hboundary
  obtain ⟨τ, f, hf, hexec⟩ := State.exec_steady_boundary hsteady hsending hboundary
  let u := s.timerAt τ
  let T := u.runningBoundary o
  have hcontext (k : CtxNo) : (f T).context k = T.context k := State.finish_keeps hf (fun v => v.context k) (fun _ _ _ => rfl) T
  have hdue {d : Due} (h : d ∈ T.due) : d ∈ (f T).due := by
    rw [State.finish_keeps hf State.due (fun _ _ _ => rfl) T]
    exact h
  refine ⟨f T, hexec, fun k x y hx hy => ?_, fun k x hx => ⟨fun horder hconsistent hphase hnotice => ?_,
    fun hphase hclock => hdue (State.mem_due_of_joins (s := u) (State.joinTimeout_of_clock hx hphase hclock)),
    fun hphase hgap => hdue (State.mem_due_of_gaps (s := u) (State.retryGapEnd_of_gap hx hphase hgap)),
    fun hphase hguard => hdue (State.mem_due_of_guards (s := u) (State.mem_guardsOver hx hphase hguard))⟩⟩
  · rw [hcontext] at hy
    obtain ⟨z, hmarked, hz⟩ := State.context_over_boundary (s := u) hx hy
    have hstep := State.contextStep_ticked u x
    have hpushed := State.pushed_ticked u x.owner
    generalize u.ticked.contextStep x = w at hz hstep
    have hkept : { y with
        runs := w.runs
        activeSeen := w.activeSeen
        streak := w.streak
        window := w.window
        lastSubstituted := w.lastSubstituted } = w := by
      obtain rfl | ⟨-, rfl⟩ := hz
      · exact congrArg (fun v : Context => { v with runs := z.runs, activeSeen := z.activeSeen, streak := z.streak }) hmarked
      · exact congrArg (fun v : Context => { v with runs := w.runs, activeSeen := w.activeSeen, streak := w.streak }) hmarked
    have hfields {β : Type} (g : Context → β) (hg : ∀ (v : Context) a b c d e,
        g { v with runs := a, activeSeen := b, streak := c, window := d, lastSubstituted := e } = g v) : g y = g w :=
      (hg y w.runs w.activeSeen w.streak w.window w.lastSubstituted).symm.trans (congrArg g hkept)
    refine ⟨fun hlength => ?_, ?_, ?_, ?_, ?_, fun hlost => ?_, ?_, ?_, ?_⟩
    · rw [hfields Context.delay (fun _ _ _ _ _ _ => rfl), hstep, hpushed]
      refine ⟨?_, rfl⟩
      show List.take 15 x.delay = x.delay.dropLast
      rw [List.dropLast_eq_take, hlength]
    · rw [hfields Context.owner (fun _ _ _ _ _ _ => rfl), hstep]
    · rw [hfields Context.lastCopper (fun _ _ _ _ _ _ => rfl), hstep]
    · rw [hfields Context.joinAttempts (fun _ _ _ _ _ _ => rfl), hstep]
    · rw [hfields Context.cutAttempts (fun _ _ _ _ _ _ => rfl), hstep]
    · obtain rfl := hz.resolve_right fun h => hlost h.1
      have hkeeps {β : Type} (g : Context → β) (hg : ∀ (v : Context) d e, g { v with window := d, lastSubstituted := e } = g v) :
          g y = g z := (hg y z.window z.lastSubstituted).symm.trans (congrArg g hmarked)
      rw [hkeeps Context.runs (fun _ _ _ => rfl), hkeeps Context.activeSeen (fun _ _ _ => rfl),
        hkeeps Context.streak (fun _ _ _ => rfl), hstep]
      exact ⟨rfl, rfl, rfl⟩
    · rw [hfields Context.joinClock (fun _ _ _ _ _ _ => rfl), hstep]
      rfl
    · rw [hfields Context.retryGap (fun _ _ _ _ _ _ => rfl), hstep]
      rfl
    · rw [hfields Context.guardRemaining (fun _ _ _ _ _ _ => rfl), hstep]
      rfl
  · rw [hcontext]
    exact State.context_kept (s := u) horder hconsistent.2.1 hx hphase hnotice

end Sys2Proof.Machine
end

section
/-! SUPPORT. The walk over the registers at a boundary (R115, R116, R121): what one step leaves of another channel, and the
events of the channels that collapse, in order (log 30). -/

namespace Sys2Proof

namespace Assoc

variable {n : Nat} {α β : Type}

theorem find_map (m : Assoc (Fin n) α) (g : Fin n → β) (k : Fin n) :
    find (m.map fun p => (p.1, g p.1)) k = (find m k).map fun _ => g k := by
  induction m with
  | nil => rfl
  | cons p t ih =>
    obtain ⟨j, v⟩ := p
    rw [List.map_cons, find_cons, find_cons]
    by_cases hj : j = k
    · rw [if_pos hj, if_pos hj, hj]
      rfl
    · rw [if_neg hj, if_neg hj, ih]

theorem keys_eq_map (m : Assoc (Fin n) α) : keys m = m.map Prod.fst := by
  induction m with
  | nil => rfl
  | cons p t ih => exact congrArg (p.1 :: ·) ih

end Assoc

namespace Machine

/-- What a step of the walk leaves of a channel that it is not at: its record and its register, the context named, and what
has come due or been raised. -/
structure Elsewhere (c : Channel) (named : Option CtxNo) (s t : State) : Prop where
  record : t.channel c = s.channel c
  register : t.register c = s.register c
  context : ∀ k, named = some k → t.context k = s.context k
  slots : t.sn = s.sn
  params : t.sc = s.sc
  due : ∃ l, t.due = s.due ++ l
  shows : ∀ e, s.du.shows e → t.du.shows e

/-- No other channel names the context of one. -/
def State.NamedAlone (s : State) (c : Channel) (named : Option CtxNo) : Prop :=
  ∀ d k, d ≠ c → named = some k → (s.channel d).context ≠ some k

theorem ChannelRecord.Carried.context_of_some {r r' : ChannelRecord} {k : CtxNo} (h : r.Carried r')
    (hk : r'.context = some k) : r.context = some k := by
  cases h with
  | kept => exact hk
  | collapses => cases hk

theorem Carried.namedAlone {s t : State} (h : Carried s t) {c : Channel} {named : Option CtxNo} (hs : s.NamedAlone c named) :
    t.NamedAlone c named := fun d k hd hk hcontext => hs d k hd hk ((h.record d).context_of_some hcontext)

namespace Elsewhere

variable {c d : Channel} {named : Option CtxNo} {s t u : State}

theorem refl (s : State) : Elsewhere c named s s :=
  ⟨rfl, rfl, fun _ _ => rfl, rfl, rfl, ⟨[], (List.append_nil _).symm⟩, fun _ h => h⟩

theorem trans (h : Elsewhere c named s t) (h' : Elsewhere c named t u) : Elsewhere c named s u := by
  obtain ⟨l, hl⟩ := h.due
  obtain ⟨l', hl'⟩ := h'.due
  exact ⟨h'.record.trans h.record, h'.register.trans h.register, fun k hk => (h'.context k hk).trans (h.context k hk),
    h'.slots.trans h.slots, h'.params.trans h.params, ⟨l ++ l', by rw [hl', hl, List.append_assoc]⟩,
    fun e he => h'.shows e (h.shows e he)⟩

theorem quietStep (hd : d ≠ c) (hs : s.NamedAlone c named) : Elsewhere c named s (s.quietStep d) := by
  by_cases h : ∃ k, s.GoneQuiet d k
  · obtain ⟨k, hk⟩ := h
    rw [State.quietStep_of_quiet hk]
    refine ⟨State.keepsOtherChannels_put (s := s) rfl c (Ne.symm hd), rfl, fun j hj => ?_, rfl, rfl,
      ⟨[], (List.append_nil _).symm⟩, fun e he => DirectiveUnit.shows_raised he _ _⟩
    refine Assoc.find_drop_other _ ?_
    rintro rfl
    exact hs d j hd hj hk.named
  · rw [State.quietStep_of_not (not_exists.mp h)]
    exact refl s

theorem chooseWord (hd : d ≠ c) (hs : s.NamedAlone c named) : Elsewhere c named s (s.chooseWord d) := by
  cases hy : s.register d with
  | none =>
    have hsame : s.chooseWord d = s := by
      unfold State.chooseWord
      rw [hy]
    rw [hsame]
    exact refl s
  | some y =>
    rw [State.chooseWord_eq hy]
    refine ⟨rfl, State.register_put_other (s := s) rfl (Ne.symm hd), fun j hj => ?_, rfl, rfl, ⟨_, rfl⟩, fun e he => he⟩
    show Assoc.find (if _ then _ else _) j = _
    split
    · exact State.context_contextsChanged_other _ fun e => hs d j hd hj e.symm
    · rfl

theorem carryStep (hd : d ≠ c) (hs : s.NamedAlone c named) : Elsewhere c named s (s.carryStep d) := by
  unfold State.carryStep
  split
  · exact refl s
  · split
    · exact refl s
    · exact (quietStep hd hs).trans (chooseWord hd ((Carried.quietStep s d).namedAlone hs))

theorem fold {l : List Channel} (hl : c ∉ l) {s : State} (hs : s.NamedAlone c named) :
    Elsewhere c named s (l.foldl State.carryStep s) := by
  induction l generalizing s with
  | nil => exact refl s
  | cons d l ih =>
    obtain ⟨hne, hrest⟩ := not_or.mp ((not_congr List.mem_cons).mp hl)
    exact (carryStep (Ne.symm hne) hs).trans (ih hrest ((Carried.carryStep s d).namedAlone hs))

end Elsewhere

namespace State

/-- The walk at a channel: a state that agrees with the first one at the channel, its step, and a state that agrees with what
the step made. -/
theorem carryAll_at {s : State} {c : Channel} {named : Option CtxNo} (hkeys : (Assoc.keys s.bi.registers).Nodup)
    (hc : c ∈ Assoc.keys s.bi.registers) (hs : s.NamedAlone c named) :
    ∃ u, Elsewhere c named s u ∧ Elsewhere c named (u.carryStep c) s.carryAll := by
  obtain ⟨l₁, l₂, hsplit⟩ := List.append_of_mem hc
  rw [hsplit] at hkeys
  obtain ⟨-, hl₂, hdisjoint⟩ := List.nodup_append.mp hkeys
  have hl₁ : c ∉ l₁ := fun h => hdisjoint c h c List.mem_cons_self rfl
  let u := l₁.foldl carryStep s
  have hu : Carried s u := Carried.fold l₁ s
  refine ⟨u, Elsewhere.fold hl₁ hs, ?_⟩
  have hall : s.carryAll = l₂.foldl carryStep (u.carryStep c) := by
    unfold carryAll
    rw [hsplit, List.foldl_append, List.foldl_cons]
  rw [hall]
  exact Elsewhere.fold (List.nodup_cons.mp hl₂).1 ((hu.trans (Carried.carryStep u c)).namedAlone hs)

/-- The walk leaves a channel without a register alone. -/
theorem carryAll_elsewhere {s : State} {c : Channel} (hc : c ∉ Assoc.keys s.bi.registers) : Elsewhere c none s s.carryAll :=
  Elsewhere.fold hc fun _ _ _ h => nomatch h

/-! ## The events -/

theorem chooseWord_channel (s : State) (c d : Channel) : (s.chooseWord c).channel d = s.channel d := by
  have h := congrArg (fun u : State => u.channel d) (chooseWord_rest s c)
  exact h

theorem chooseWord_du (s : State) (c : Channel) : (s.chooseWord c).du = s.du := by
  have h := congrArg State.du (chooseWord_rest s c)
  exact h

theorem carryStep_quietStep (s : State) (c : Channel) :
    s.carryStep c = s ∨ s.carryStep c = (s.quietStep c).chooseWord c := by
  unfold carryStep
  split
  · exact .inl rfl
  · split
    · exact .inl rfl
    · exact .inr rfl

/-- A channel that collapses at its step, or one that does not. -/
theorem carryStep_collapses (s : State) (c : Channel) :
    ((s.carryStep c).cm = s.cm ∧ (s.carryStep c).du = s.du) ∨
    (∃ k, (s.channel c).context = some k) ∧ (s.channel c).phase = .carried ∧
      (s.carryStep c).cm = Assoc.put s.cm c (s.channel c).collapses ∧ (s.carryStep c).du = s.du.raised .collapsed c := by
  have hkeeps {β : Type} (g : State → β) (hg : ∀ (u : State) b p e, g { u with bi := b, cp := p, due := e } = g u)
      (u : State) : g (u.chooseWord c) = g u := (hg _ _ _ _).symm.trans (congrArg g (chooseWord_rest u c))
  obtain h | h := carryStep_quietStep s c
  · rw [h]
    exact .inl ⟨rfl, rfl⟩
  · rw [h, hkeeps State.cm (fun _ _ _ _ => rfl), hkeeps State.du fun _ _ _ _ => rfl]
    by_cases hquiet : ∃ k, s.GoneQuiet c k
    · obtain ⟨k, hk⟩ := hquiet
      rw [quietStep_of_quiet hk]
      exact .inr ⟨⟨k, hk.named⟩, hk.phase, rfl, rfl⟩
    · rw [quietStep_of_not (not_exists.mp hquiet)]
      exact .inl ⟨rfl, rfl⟩

/-- The channels that collapse in a walk over a list, in its order, and their events. -/
theorem fold_collapsed {l : List Channel} (hl : l.Nodup) (s : State) : ∃ l' : List Channel, l'.Sublist l ∧
    (l.foldl carryStep s).du = l'.foldl (fun d c => d.raised .collapsed c) s.du ∧
    (∀ c ∈ l', (∃ k, (s.channel c).context = some k) ∧ (s.channel c).phase = .carried ∧
      (l.foldl carryStep s).channel c = (s.channel c).collapses) ∧
    ∀ c, c ∉ l' → (l.foldl carryStep s).channel c = s.channel c := by
  induction l generalizing s with
  | nil => exact ⟨[], List.Sublist.slnil, rfl, fun _ h => absurd h List.not_mem_nil, fun _ _ => rfl⟩
  | cons d l ih =>
    obtain ⟨hd, hl⟩ := List.nodup_cons.mp hl
    obtain ⟨l', hsub, hdu, hin, hout⟩ := ih hl (s.carryStep d)
    have hnot : d ∉ l' := fun h => hd (hsub.subset h)
    obtain ⟨hcm, hstep⟩ | ⟨hk, hphase, hcm, hstep⟩ := carryStep_collapses s d
    · have hsame (c : Channel) : (s.carryStep d).channel c = s.channel c := by
        unfold channel
        rw [hcm]
      refine ⟨l', hsub.cons d, ?_, fun c hc => ?_, fun c hc => ?_⟩
      · rw [List.foldl_cons, hdu, hstep]
      · rw [← hsame c]
        exact hin c hc
      · exact (hout c hc).trans (hsame c)
    · have hother {c : Channel} (hc : c ≠ d) : (s.carryStep d).channel c = s.channel c := keepsOtherChannels_put hcm c hc
      refine ⟨d :: l', hsub.cons_cons d, ?_, fun c hc => ?_, fun c hc => ?_⟩
      · rw [List.foldl_cons, hdu, hstep]
        rfl
      · obtain rfl | hc := List.mem_cons.mp hc
        · exact ⟨hk, hphase, (hout c hnot).trans (channel_put hcm)⟩
        · rw [← hother fun e => hnot (e ▸ hc)]
          exact hin c hc
      · obtain ⟨hne, hc⟩ := not_or.mp ((not_congr List.mem_cons).mp hc)
        exact (hout c hc).trans (hother hne)

theorem carryStep_proofQueue (s : State) (c : Channel) : (s.carryStep c).cp.queue = s.cp.queue := by
  obtain h | h := carryStep_quietStep s c
  · rw [h]
  · have hchoose (u : State) : (u.chooseWord c).cp.queue = u.cp.queue := by
      cases hy : u.register c with
      | none =>
        unfold chooseWord
        rw [hy]
      | some y => rw [chooseWord_eq hy]
    rw [h, hchoose]
    by_cases hquiet : ∃ k, s.GoneQuiet c k
    · obtain ⟨k, hk⟩ := hquiet
      rw [quietStep_of_quiet hk]
      rfl
    · rw [quietStep_of_not (not_exists.mp hquiet)]

theorem carryAll_proofQueue (s : State) : s.carryAll.cp.queue = s.cp.queue :=
  foldl_keeps (fun u => u.cp.queue) carryStep carryStep_proofQueue _ s

/-! ## The registers under the new routes -/

section
variable {s : State} {o : BoundaryOrder}

theorem framed_registers (s : State) (o : BoundaryOrder) : (s.framed o).bi.registers = s.countAll.bi.registers := by
  have hframed : (s.framed o).bi.registers = (s.beforeFrame o).bi.registers :=
    framed_keeps s o (fun u => u.bi.registers) fun _ _ _ _ _ _ => rfl
  have hnotice : (s.beforeFrame o).bi.registers = (s.afterLoss o).bi.registers :=
    (noticed_beforeFrame s o).keeps (fun u => u.bi.registers) fun _ _ _ _ _ _ _ _ => rfl
  have hassign : (s.afterAssign o).bi.registers = s.countAll.bi.registers :=
    (assigned_afterAssign s o).keeps (fun u => u.bi.registers) fun _ _ _ _ => rfl
  rw [hframed, hnotice, ← hassign]
  by_cases hlost : s.losesFirst o
  · have h := congrArg (fun u : State => u.bi.registers) (carrierGone_afterLoss hlost).rest
    exact h
  · rw [afterLoss_of_not hlost]

theorem endGuards_keys (l : List Channel) (u : State) (h : (Assoc.keys u.bi.registers).Pairwise (· < ·)) :
    (Assoc.keys (l.foldl endGuard u).bi.registers).Pairwise (· < ·) := by
  induction l generalizing u with
  | nil => exact h
  | cons c l ih =>
    refine ih _ ?_
    unfold endGuard
    split
    · exact h
    · exact Assoc.pairwise_keys_put _ _ h

theorem latched_registers (s : State) : s.latched.bi.registers =
    ((Assoc.mapValues (fun _ r => r.latchRoute) s.cm).filter fun p => decide (p.2.active.inn = .fibre)).map fun p =>
      (p.1, (s.register p.1).getD (FibreRegister.start (s.countAll.idleOf p.1))) := by
  have hidle (c : Channel) : s.countAll.idleOf c = s.latched.idleOf c :=
    countAll_keeps s (fun u => u.idleOf c) (fun _ _ => rfl) fun _ _ => rfl
  simp only [hidle]
  rfl

theorem countAll_registers (s : State) : s.countAll.bi.registers = (s.guardsOver.foldl endGuard s.latched).bi.registers := by
  rw [countAll_eq]
  exact pauseStep_keeps (fun u => u.bi.registers) (fun _ _ => rfl) _

theorem countAll_keys (h : s.channelsInOrder) : (Assoc.keys s.countAll.bi.registers).Pairwise (· < ·) := by
  rw [countAll_registers]
  refine endGuards_keys _ _ ?_
  rw [latched_registers, Assoc.keys_eq_map, List.map_map]
  have hkeys : (Assoc.mapValues (fun _ r => r.latchRoute) s.cm).map Prod.fst = Assoc.keys s.cm := by
    rw [← Assoc.keys_eq_map, Assoc.keys_mapValues]
  refine List.Pairwise.sublist (List.Sublist.map Prod.fst List.filter_sublist) ?_
  rw [hkeys]
  exact h

theorem endGuards_register (l : List Channel) (u : State) (c : Channel) : (l.foldl endGuard u).register c =
    (u.register c).map fun y => { y with guardEnding := y.guardEnding || decide (c ∈ l) } := by
  induction l generalizing u with
  | nil => cases h : u.register c <;> simp [h]
  | cons d l ih =>
    rw [List.foldl_cons, ih]
    by_cases hd : c = d
    · subst hd
      unfold endGuard
      cases h : u.register c with
      | none => rw [h]; rfl
      | some y =>
        dsimp only
        rw [register_setRegister_same]
        simp
    · have hsame : (u.endGuard d).register c = u.register c := by
        unfold endGuard
        split
        · rfl
        · exact register_put_other (s := u) rfl hd
      rw [hsame]
      simp [hd]

/-- The register of a channel once the routes have latched and the guards have ended (R113, R115). -/
theorem countAll_register (h : s.channelsInOrder) (c : Channel) : s.countAll.register c =
    if (s.channel c).pending.inn = .fibre then
      some (let y := (s.register c).getD (FibreRegister.start (s.countAll.idleOf c))
        { y with guardEnding := y.guardEnding || decide (c ∈ s.guardsOver) })
    else none := by
  have hregister : s.countAll.register c = (s.guardsOver.foldl endGuard s.latched).register c := by
    unfold register
    rw [countAll_registers]
  have hlatched : s.latched.register c = if (s.channel c).pending.inn = .fibre then
      some ((s.register c).getD (FibreRegister.start (s.countAll.idleOf c))) else none := by
    have horder : (Assoc.keys (Assoc.mapValues (fun _ r => r.latchRoute) s.cm)).Pairwise (· < ·) := by
      rw [Assoc.keys_mapValues]
      exact h
    show Assoc.find s.latched.bi.registers c = _
    rw [latched_registers,
      Assoc.find_map _ fun c => (s.register c).getD (FibreRegister.start (s.countAll.idleOf c)),
      Assoc.find_filter _ horder, Assoc.find_mapValues]
    unfold channel
    cases hfind : Assoc.find s.cm c with
    | none => exact (if_neg InSetting.noConfusion).symm
    | some r =>
      by_cases hfibre : r.pending.inn = .fibre
      · simp [hfibre, ChannelRecord.latchRoute, Option.filter]
      · simp [hfibre, ChannelRecord.latchRoute, Option.filter]
  rw [hregister, endGuards_register, hlatched]
  split <;> rfl

end

end State

end Machine
end Sys2Proof
end

section
/-! SUPPORT. What every boundary keeps, whatever is due before it (R18 to R21, R164), and the statement that it settles. -/

namespace Sys2Proof.Machine

/-- The frame without what a boundary changes of it: the timer, the pairing register, the captures, the frame being sent and
the free values used. -/
def State.outline (s : State) : State :=
  { s.frame with
    ft := ⟨0, .locked, 0, false⟩
    bi := { s.frame.bi with pairing := none }
    cl := { s.frame.cl with captures := [], sending := none }
    freeUsed := 0 }

namespace State

theorem outline_of_frame {s t : State} (h : t.frame = s.frame) : t.outline = s.outline := by
  unfold outline
  rw [h]

theorem reportSent_outline (s : State) : s.reportSent.outline = s.outline ∧ s.reportSent.ft = s.ft ∧
    s.reportSent.part = s.part := by
  unfold reportSent
  split
  · exact ⟨rfl, rfl, rfl⟩
  · split
    · exact ⟨rfl, rfl, rfl⟩
    · split
      · dsimp only
        split <;> exact ⟨rfl, rfl, rfl⟩
      · exact ⟨rfl, rfl, rfl⟩

theorem countAll_outline (s : State) : s.countAll.outline = s.outline := by
  have h := congrArg outline (countAll_rest s)
  exact h

theorem runningBoundary_outline (s : State) (o : BoundaryOrder) : (s.runningBoundary o).outline = s.outline := by
  have hcarry : (s.runningBoundary o).outline = (s.framed o).outline := outline_of_frame (carryAll_frame (s.framed o))
  have hframed : (s.framed o).outline = (s.beforeFrame o).outline := framed_keeps s o outline fun _ _ _ _ _ _ => rfl
  rw [hcarry, hframed, outline_of_frame (frame_beforeFrame s o), countAll_outline]

/-- A boundary from either source ticks the frame timer, and keeps the outline. -/
theorem boundary_outline (s : State) (o : BoundaryOrder) :
    (s.boundary o).outline = s.outline ∧ (s.boundary o).ft = s.tick.ft := by
  unfold boundary
  split
  · obtain ⟨houtline, hft, -⟩ := reportSent_outline s
    have hsettled := frame_settled s.reportSent
    refine ⟨?_, ?_⟩
    · rw [runningBoundary_outline, outline_of_frame hsettled, houtline]
    · rw [runningBoundary_ft]
      show FrameTimer.mk _ _ _ _ = FrameTimer.mk _ _ _ _
      rw [frame_ft hsettled, hft]
  · exact ⟨rfl, rfl⟩

/-- The boundary in its order: a boundary of a state in the same frame, the row's mark, and the claims left due. -/
theorem orderedBoundary_shape (s : State) (o : BoundaryOrder) (f : State → State) : ∃ (v : State) (d : List Due),
    v.frame = s.frame ∧ s.orderedBoundary o f = { f (v.boundary o) with due := d } := by
  unfold orderedBoundary
  split
  · exact ⟨s.settled, (f (s.settled.boundary o)).due, frame_settled s, rfl⟩
  · exact ⟨settled { s with due := s.due.filter fun d => decide (d ∉ s.floating) }, _, frame_settled _, rfl⟩

end State

/-- What a boundary row does, row by row: its time, and the mark that it sets. -/
inductive BoundaryRow (s : State) (o : BoundaryOrder) : Instr → Nat → (State → State) → Prop
  | fmark (time : Nat) : BoundaryRow s o (.fmark time o) time (State.relock s.ft.mark)
  | entry (h : s.ft.mark = .locked) : BoundaryRow s o (.holdoverEntry o) Config.holdoverLimit State.loseMark
  | holdover (h : s.ft.mark = .holdover) : BoundaryRow s o (.holdoverBoundary o) Config.holdoverPeriod id

theorem exec_boundaryRow {i : Instr} {o : BoundaryOrder} {s : State} (h : boundaryOf i s = some o) :
    s.resetHeld = false ∧ ∃ τ f, BoundaryRow s o i τ f ∧ exec i s = .next ((s.timerAt τ).orderedBoundary o f) := by
  unfold boundaryOf at h
  split at h
  · cases h
  next hreset =>
    refine ⟨Bool.eq_false_iff.mpr hreset, ?_⟩
    cases i with
    | fmark time o' =>
      dsimp only at h
      split at h
      · cases h
      next hnot =>
        cases h
        have hrunt : (s.timerAt time).ft.runt ≠ true := by
          unfold FrameTimer.runt
          rw [Ne, Bool.and_eq_true, decide_eq_true_iff]
          exact hnot
        refine ⟨time, _, .fmark time, congrArg Host.Outcome.next ?_⟩
        rw [if_neg hreset, if_neg hrunt]
        rfl
    | holdoverEntry o' =>
      dsimp only at h
      split at h
      next hmark =>
        cases h
        refine ⟨_, _, .entry hmark, congrArg Host.Outcome.next (if_neg fun hor => ?_)⟩
        exact hor.elim hreset fun e => MarkState.noConfusion (hmark.symm.trans e)
      next => cases h
    | holdoverBoundary o' =>
      dsimp only at h
      split at h
      next hmark =>
        cases h
        refine ⟨_, _, .holdover hmark, congrArg Host.Outcome.next (if_neg fun hor => ?_)⟩
        exact hor.elim hreset fun e => MarkState.noConfusion (hmark.symm.trans e)
      next => cases h
    | _ => cases h

namespace BoundaryRow

variable {s : State} {o : BoundaryOrder} {i : Instr} {τ : Nat} {f : State → State}

theorem finish (h : BoundaryRow s o i τ f) : Finish f := by
  cases h with
  | fmark => exact finish_relock _
  | entry => exact finish_loseMark
  | holdover => exact fun _ => rfl

/-- The timer keeps its counts when the row sets the mark. -/
theorem timer (h : BoundaryRow s o i τ f) (u : State) : { (f u).ft with mark := u.ft.mark } = u.ft := by
  cases h with
  | fmark =>
    unfold State.relock
    split
    · rfl
    · rw [raise_eq]
  | entry =>
    unfold State.loseMark
    rw [raise_eq]
  | holdover => rfl

theorem outline_eq (h : BoundaryRow s o i τ f) (u : State) : (f u).outline = u.outline := by
  cases h with
  | fmark =>
    unfold State.relock
    split
    · rfl
    · exact (State.outline_of_frame (frame_raise _ _ _)).trans rfl
  | entry => exact (State.outline_of_frame (frame_raise _ _ _)).trans rfl
  | holdover => rfl

/-- The mark that the row sets, and its event (R20, R21). -/
theorem marks (h : BoundaryRow s o i τ f) {u : State} (hu : u.ft.mark = s.ft.mark) :
    ((∃ time, i = .fmark time o) → (f u).ft.mark = .locked ∧
      (f u).du = if s.ft.mark = .holdover then u.du.raised .markRestored 0 else u.du) ∧
    (i = .holdoverEntry o → (f u).ft.mark = .holdover ∧ (f u).du = u.du.raised .markLost 0) ∧
    (i = .holdoverBoundary o → (f u).ft.mark = .holdover ∧ (f u).du = u.du) := by
  cases h with
  | fmark =>
    refine ⟨fun _ => ?_, nofun, nofun⟩
    cases hmark : s.ft.mark with
    | locked => exact ⟨hu.trans hmark, rfl⟩
    | holdover =>
      unfold State.relock
      dsimp only
      rw [raise_eq, if_pos rfl]
      exact ⟨rfl, rfl⟩
  | entry =>
    refine ⟨nofun, fun _ => ?_, nofun⟩
    unfold State.loseMark
    rw [raise_eq]
    exact ⟨rfl, rfl⟩
  | holdover hmark => exact ⟨nofun, nofun, fun _ => ⟨hu.trans hmark, rfl⟩⟩

end BoundaryRow

theorem DirectiveUnit.lastRaised_raised (d : DirectiveUnit) (k : EventKind) : (d.raised k 0).lastRaised k := by
  unfold raised lastRaised
  split
  · exact .inl List.getLast?_concat
  · exact .inr rfl

namespace State

section
variable {s : State} {o : BoundaryOrder}

theorem waited_of_not_pause (h : ∀ r p m, s.sc.flight ≠ some ⟨r, p, .pause (m + 1)⟩) :
    s.sc.flight.map Flight.waited = s.sc.flight := by
  rcases hflight : s.sc.flight with _ | ⟨r, p, stage⟩
  · rfl
  rcases stage with _ | _ | _ | _ | m
  case pause.succ => exact absurd hflight (h r p m)
  all_goals rfl

/-- Where the order takes neither SN's test, nor an assignment, nor a carrier loss first, the queues stay. -/
theorem queues_of_late (hnotice : o.noticeFirst = false) (hassign : o.assignFirst = false) (hlost : ¬ s.losesFirst o) :
    (s.runningBoundary o).sn.queue = s.sn.queue ∧ (s.runningBoundary o).cp.queue = s.cp.queue := by
  have hbefore : s.beforeFrame o = s.countAll := by
    rw [beforeFrame_of_not hnotice, afterLoss_of_not hlost, afterAssign_of_not hassign]
  refine ⟨?_, ?_⟩
  · rw [runningBoundary_sn, hbefore]
    exact (congrArg SlotTable.queue (countAll_sn s) :)
  · refine (carryAll_proofQueue (s.framed o)).trans ?_
    rw [framed_keeps s o (fun u => u.cp.queue) fun _ _ _ _ _ _ => rfl, hbefore]
    exact (congrArg ContextPool.queue (countAll_cp s) :)

/-- The channels that collapse at a boundary, with their events, where the order takes neither SN's test nor a carrier loss
first. -/
theorem collapsed_at_boundary (horder : s.channelsInOrder) (hfields : s.fieldsByPhase) (hnotice : o.noticeFirst = false)
    (hlost : ¬ s.losesFirst o) : ∃ l : List Channel, l.Pairwise (· < ·) ∧
      (∀ c, c ∈ l ↔ (s.channel c).collapsed = false ∧ ((s.runningBoundary o).channel c).collapsed = true) ∧
      (s.runningBoundary o).du = l.foldl (fun d c => d.raised .collapsed c) s.du := by
  have hkeys : (Assoc.keys (s.framed o).bi.registers).Pairwise (· < ·) := by
    rw [framed_registers]
    exact countAll_keys horder
  obtain ⟨l, hsub, hdu, hin, hout⟩ := fold_collapsed (hkeys.imp fun h => Fin.ne_of_lt h) (s.framed o)
  have hbefore : s.beforeFrame o = s.afterAssign o := by rw [beforeFrame_of_not hnotice, afterLoss_of_not hlost]
  have hcollapsed (c : Channel) : ((s.framed o).channel c).collapsed = (s.channel c).collapsed := by
    rw [framed_channel, hbefore, ((assigned_afterAssign s o).record c).collapsed_eq, countAll_channel]
    rfl
  refine ⟨l, hkeys.sublist hsub, fun c => ⟨fun hc => ?_, fun ⟨hbefore, hafter⟩ => ?_⟩, ?_⟩
  · obtain ⟨⟨k, hk⟩, hphase, hrecord⟩ := hin c hc
    rw [framed_channel] at hphase hk
    obtain ⟨-, hcarried, hsame⟩ := carried_beforeFrame hphase
    rw [hsame] at hk
    have hholds := (hfields c).1.mp (by rw [show (s.channel c).context = some k from hk]; exact Option.some_ne_none k)
    refine ⟨?_, congrArg ChannelRecord.collapsed hrecord⟩
    obtain hproving | ⟨-, hopen⟩ := hholds
    · rw [hcarried] at hproving
      exact absurd hproving (by decide)
    · exact hopen
  · refine Classical.byContradiction fun hc => ?_
    have hsame : ((s.runningBoundary o).channel c).collapsed = (s.channel c).collapsed :=
      (congrArg ChannelRecord.collapsed (hout c hc)).trans (hcollapsed c)
    rw [hsame, hbefore] at hafter
    cases hafter
  · refine hdu.trans (congrArg (l.foldl _) ?_)
    rw [framed_keeps s o State.du fun _ _ _ _ _ _ => rfl, hbefore, (assigned_afterAssign s o).keeps State.du fun _ _ _ _ => rfl,
      countAll_du]

end

end State

/-- Settles O13: the outline and the timer by `boundary_outline`, the mark by `BoundaryRow.marks`, the events by
`collapsed_at_boundary`. -/
theorem boundaryCountsTheFrameAndSetsTheMark : Obligations.BoundaryCountsTheFrameAndSetsTheMark := by
  intro i o s hboundary
  obtain ⟨hreset, τ, f, hrow, hexec⟩ := exec_boundaryRow hboundary
  let u := s.timerAt τ
  obtain ⟨v, d, hv, hshape⟩ := State.orderedBoundary_shape u o f
  obtain ⟨hkept, hticked⟩ := State.boundary_outline v o
  have hft : (v.boundary o).ft = u.tick.ft := by
    rw [hticked]
    show FrameTimer.mk _ _ _ _ = FrameTimer.mk _ _ _ _
    rw [frame_ft hv]
  have hmark : (v.boundary o).ft.mark = s.ft.mark := by rw [hft]; rfl
  obtain ⟨hfmark, hentry, hholdover⟩ := hrow.marks hmark
  have htimer := hrow.timer (v.boundary o)
  rw [hft] at htimer
  have houtline : (f (v.boundary o)).outline = s.outline :=
    ((hrow.outline_eq _).trans hkept).trans ((State.outline_of_frame hv).trans rfl)
  refine ⟨{ f (v.boundary o) with due := d }, hexec.trans (congrArg _ hshape), ?_, ?_, ?_, (congrArg State.part houtline :),
    (congrArg State.resetHeld houtline :).trans hreset, (congrArg State.pending houtline :),
    fun h => ⟨(hfmark h).1, fun hm => ?_⟩, fun h => ⟨(hentry h).1, ?_⟩, fun h => (hholdover h).1, ?_, fun hsteady hsending => ?_⟩
  · have h := congrArg (fun x : FrameTimer => x.frameNumber.toNat) htimer
    exact Eq.trans h (BitVec.toNat_add _ _)
  · have h := congrArg FrameTimer.timer htimer
    exact h
  · have h := congrArg FrameTimer.boundarySeen htimer
    exact h
  · show DirectiveUnit.lastRaised (f (v.boundary o)).du _
    rw [(hfmark h).2, if_pos hm]
    exact DirectiveUnit.lastRaised_raised _ _
  · show DirectiveUnit.lastRaised (f (v.boundary o)).du _
    rw [(hentry h).2]
    exact DirectiveUnit.lastRaised_raised _ _
  · exact congrArg (fun w : State => { w with
      ft := s.ft
      bi := { w.bi with pairing := s.bi.pairing }
      cl := { w.cl with captures := s.cl.captures, sending := s.cl.sending }
      freeUsed := s.freeUsed }) houtline
  · have ht : { f (v.boundary o) with due := d } = f (u.runningBoundary o) := by
      rw [← hshape, orderedBoundary_of_due_nil (show u.due = [] from hsteady.2.2), boundary_steady hsteady hsending]
    generalize { f (v.boundary o) with due := d } = t at ht ⊢
    subst ht
    let T := u.runningBoundary o
    have hsn : (f T).sn = T.sn := State.finish_keeps hrow.finish State.sn (fun _ _ _ => rfl) T
    have hcl : (f T).cl = T.cl := State.finish_keeps hrow.finish State.cl (fun _ _ _ => rfl) T
    have hsc : (f T).sc = { s.sc with flight := s.sc.flight.map Flight.waited } :=
      (State.finish_keeps hrow.finish State.sc (fun _ _ _ => rfl) T).trans (State.runningBoundary_sc (s := u))
    have hchannel (c : Channel) : (f T).channel c = T.channel c :=
      State.finish_keeps hrow.finish (fun w => w.channel c) (fun _ _ _ => rfl) T
    have hmark : T.ft.mark = s.ft.mark := by rw [State.runningBoundary_ft]; rfl
    obtain ⟨hfmark, hentry, hholdover⟩ := hrow.marks hmark
    refine ⟨by rw [hsc], fun h => ?_, fun hlost => ?_, fun hnotice => ?_, fun hnotice hassign hlost => ?_,
      fun hnotice hlost horder hconsistent => ?_⟩
    · rw [hsc]
      exact State.waited_of_not_pause h
    · rw [hsn, hcl, State.runningBoundary_sn, State.runningBoundary_cl, State.afterLoss_of_not (s := u) hlost,
        State.afterAssign_cl]
      exact ⟨State.beforeFrame_peer_of_not (s := u) hlost, rfl, rfl, rfl⟩
    · rw [hsn, State.runningBoundary_sn, State.beforeFrame_of_not hnotice]
      exact State.afterLoss_nextNumber (s := u)
    · obtain ⟨hrequests, hqueue⟩ := State.queues_of_late (s := u) hnotice hassign hlost
      exact ⟨(congrArg SlotTable.queue hsn).trans hrequests,
        (State.finish_keeps hrow.finish (fun w => w.cp.queue) (fun _ _ _ => rfl) T).trans hqueue⟩
    · obtain ⟨l, hl, hmem, hdu⟩ := State.collapsed_at_boundary (s := u) (o := o) horder hconsistent.1 hnotice hlost
      refine ⟨l, hl, fun c => ?_, fun h => ?_, fun h => ?_, fun h => ?_⟩
      · rw [hchannel]
        exact hmem c
      · rw [(hfmark h).2, hdu]
        rfl
      · rw [(hentry h).2, hdu]
        rfl
      · rw [(hholdover h).2, hdu]
        rfl

end Sys2Proof.Machine
end

section
/-! SUPPORT. The fibre word of one channel at a boundary (R25, R113, R115 to R117, R119 to R121), and the statement that it
settles. -/

namespace Sys2Proof.Machine

/-- The frame word made from a carried word: with the supervision of the last copper word, where it is held (R113). -/
def heldOver (held : Option Pattern) (w : Pattern) : Pattern :=
  match held with
  | none => w
  | some last => last.extractLsb' 8 4 ++ w.extractLsb' 0 8

/-- A register after the choice of its word, with the supervision of a guarded frame held (R113, R116). -/
def FibreRegister.chosenWith (y : FibreRegister) (source : Option Pattern) (holdLimit : Nat) (idle : Pattern)
    (held : Option Pattern) : FibreRegister :=
  let z := y.choose source holdLimit idle
  { z with frameWord := heldOver held z.carriedWord }

/-- A channel's register has become this one, and SLOT_SILENT is due where its count has passed the limit (R117). -/
def State.Became (t : State) (c : Channel) (holdLimit : Nat) (z : FibreRegister) : Prop :=
  t.register c = some z ∧ (holdLimit < z.repeats → z.silent = false → .slotSilent c ∈ t.due)

theorem State.Became.elsewhere {s t : State} {c : Channel} {holdLimit : Nat} {z : FibreRegister} {named : Option CtxNo}
    (h : s.Became c holdLimit z) (hst : Elsewhere c named s t) : t.Became c holdLimit z := by
  obtain ⟨l, hl⟩ := hst.due
  exact ⟨hst.register.trans h.1, fun hrepeats hsilent => hl ▸ List.mem_append_left _ (h.2 hrepeats hsilent)⟩

namespace State

section
variable {u : State} {c : Channel} {y : FibreRegister} {idle : Pattern}

theorem chooseWord_became {source held : Option Pattern} (hy : u.register c = some y) (hsource : u.sourceWord c = source)
    (hidle : (u.channel c).idle = some idle) (hheld : ∀ w, u.guardedWord c w = heldOver held w) :
    u.chosenRegister c y = y.chosenWith source u.sc.params.holdLimit idle held ∧
    (u.chooseWord c).Became c u.sc.params.holdLimit (y.chosenWith source u.sc.params.holdLimit idle held) := by
  have hz : u.chosenRegister c y = y.chosenWith source u.sc.params.holdLimit idle held := by
    unfold chosenRegister FibreRegister.chosenWith
    dsimp only
    rw [hheld, hsource, idleOf_of_some hidle]
  refine ⟨hz, ?_⟩
  rw [chooseWord_eq hy, hz]
  refine ⟨register_put (s := u) rfl, fun hrepeats hsilent => List.mem_append_right _ ?_⟩
  unfold silenceDue
  rw [if_pos ⟨hrepeats, hsilent⟩]
  exact List.mem_singleton.mpr rfl

theorem carryStep_eq (hy : u.register c = some y) (hguard : y.guardEnding = false) :
    u.carryStep c = (u.quietStep c).chooseWord c := by
  unfold carryStep
  rw [hy]
  exact if_neg (by rw [hguard]; exact Bool.noConfusion)

/-- A step at a channel without a context (R116). -/
theorem carryStep_unowned {n : SlotNo} (hy : u.register c = some y) (hguard : y.guardEnding = false)
    (hnone : (u.channel c).context = none) (hslot : (u.channel c).slot = some n) (hidle : (u.channel c).idle = some idle) :
    (u.carryStep c).Became c u.sc.params.holdLimit
      (y.chosenWith (goodArrival (u.slot n).visible) u.sc.params.holdLimit idle none) ∧
    (u.carryStep c).channel c = u.channel c := by
  rw [carryStep_eq hy hguard, quietStep_of_not fun k hk => Option.some_ne_none k (hk.named.symm.trans hnone)]
  exact ⟨(chooseWord_became (held := none) hy (sourceWord_of_slot hnone hslot) hidle fun w => guardedWord_unguarded w (.inl hnone)).2,
    chooseWord_channel u c c⟩

/-- A step at a carried channel that does not collapse (R113, R116, R119). -/
theorem carryStep_watched {k : CtxNo} {x : Context} {held : Option Pattern} (hy : u.register c = some y)
    (hguard : y.guardEnding = false) (hphase : (u.channel c).phase = .carried) (hk : (u.channel c).context = some k)
    (hx : u.context k = some x) (hidle : (u.channel c).idle = some idle)
    (hnot : ¬ (x.guardRemaining = 0 ∧ u.quiet c x y = true)) (hheld : ∀ w, u.guardedWord c w = heldOver held w) :
    let z := y.chosenWith (x.delay.getD (u.channel c).lag.val none) u.sc.params.holdLimit idle held
    (u.carryStep c).Became c u.sc.params.holdLimit z ∧ (u.carryStep c).context k = some (x.mark z.carriedWord) ∧
    (u.carryStep c).channel c = u.channel c := by
  intro z
  have hquiet (j : CtxNo) : ¬ u.GoneQuiet c j := by
    rintro ⟨-, hj, x', y', hx', hy', hover, hq⟩
    obtain rfl := Option.some.inj (hk.symm.trans hj)
    obtain rfl := Option.some.inj (hx.symm.trans hx')
    obtain rfl := Option.some.inj (hy.symm.trans hy')
    exact hnot ⟨hover, hq⟩
  obtain ⟨hz, hbecame⟩ := chooseWord_became hy (sourceWord_of_context hk hx) hidle hheld
  rw [carryStep_eq hy hguard, quietStep_of_not hquiet]
  refine ⟨hbecame, ?_, chooseWord_channel u c c⟩
  rw [chooseWord_eq hy, hz]
  show Assoc.find (if _ then _ else _) k = _
  rw [if_pos hphase]
  exact context_contextsChanged_same _ hk hx

/-- A step at a carried channel that collapses (R36, R121). -/
theorem carryStep_collapsed {k : CtxNo} {n : SlotNo} (hy : u.register c = some y) (hguard : y.guardEnding = false)
    (hquiet : u.GoneQuiet c k) (hslot : (u.channel c).slot = some n) (hidle : (u.channel c).idle = some idle) :
    (u.carryStep c).Became c u.sc.params.holdLimit
      (y.chosenWith (goodArrival (u.slot n).visible) u.sc.params.holdLimit idle none) ∧
    (u.carryStep c).context k = none ∧ (u.carryStep c).channel c = (u.channel c).collapses ∧
    (u.carryStep c).du.shows ⟨.collapsed, c⟩ := by
  let v := u.collapse c k
  have hv : v.channel c = (u.channel c).collapses := channel_put (s := u) rfl
  have hnone : (v.channel c).context = none := by rw [hv]; rfl
  have hyv : v.register c = some y := hy
  have hslot' : (v.channel c).slot = some n := by rw [hv]; exact hslot
  rw [carryStep_eq hy hguard, quietStep_of_quiet hquiet]
  refine ⟨(chooseWord_became (u := v) (held := none) hyv (sourceWord_of_slot hnone hslot') (by rw [hv]; exact hidle)
    fun w => guardedWord_unguarded w (.inl hnone)).2, ?_, ?_, ?_⟩
  · have hcontext : v.context k = none := Assoc.find_drop_same _ _
    rw [chooseWord_eq hyv]
    show Assoc.find (if _ then _ else _) k = _
    split
    · exact find_contextsChanged_none c _ hcontext
    · exact hcontext
  · rw [chooseWord_channel, hv]
  · rw [chooseWord_du]
    exact DirectiveUnit.shows_raised_self _ _ _

end

/-! ## The channel when the walk begins -/

section
variable {s : State} {o : BoundaryOrder} {c : Channel}

theorem phase_of_fibre (h : s.routesFollow) (hfibre : (s.channel c).pending.inn = .fibre) :
    (s.channel c).phase ∈ [.carried, .retiring, .retired, .recalling] := by
  rw [channel_routes h c] at hfibre
  cases hphase : (s.channel c).phase <;> rw [hphase] at hfibre <;> first | decide | cases hfibre

theorem pending_of_carried (h : s.routesFollow) (hphase : (s.channel c).phase = .carried) :
    (s.channel c).pending = ⟨.fibre, .pass, .live⟩ := by
  rw [channel_routes h c, hphase]
  rfl

theorem framed_sc (s : State) (o : BoundaryOrder) : (s.framed o).sc.params = s.sc.params := by
  rw [framed_keeps s o State.sc fun _ _ _ _ _ _ => rfl, beforeFrame_sc]

theorem framed_visible (s : State) (o : BoundaryOrder) (n : SlotNo) : ((s.framed o).slot n).visible = (s.slot n).latch := by
  rw [framed_keeps s o (fun u => u.slot n) fun _ _ _ _ _ _ => rfl, ((noticed_beforeFrame s o).arrivals n).1,
    afterLoss_slot_keeps SlotEntry.visible (fun _ => rfl), SlotEntry.boundary_eq]

theorem framed_channel_of_phase (hassign : o.assignFirst = false ∨
    (s.channel c).phase ≠ .enrolled ∧ (s.channel c).phase ≠ .fallen) (hnotice : o.noticeFirst = false ∨
    (s.channel c).phase ≠ .joining) : (s.losesFirst o → (s.framed o).channel c = (s.channel c).latchRoute.lost) ∧
    (¬ s.losesFirst o → (s.framed o).channel c = (s.channel c).latchRoute) := by
  have hkept {r : ChannelRecord} (hr : (s.afterLoss o).channel c = r) (hphase : (s.channel c).phase ≠ .joining →
      r.phase ≠ .joining) : (s.framed o).channel c = r := by
    rw [framed_channel]
    obtain hnotice | hnotice := hnotice
    · rw [beforeFrame_of_not hnotice, hr]
    · rw [(noticed_beforeFrame s o).channel_eq (by rw [hr]; exact hphase hnotice), hr]
  exact ⟨fun hlost => hkept (afterLoss_channel_of_lost hlost hassign) fun h =>
      (not_congr (ChannelRecord.lost_joining (r := (s.channel c).latchRoute))).mpr h,
    fun hlost => hkept (afterLoss_channel_of_not hlost hassign) id⟩

theorem framed_channel_of_fibre (h : s.routesFollow) (hfibre : (s.channel c).pending.inn = .fibre) :
    (s.losesFirst o → (s.framed o).channel c = (s.channel c).latchRoute.lost) ∧
    (¬ s.losesFirst o → (s.framed o).channel c = (s.channel c).latchRoute) := by
  have hphase := phase_of_fibre h hfibre
  simp only [List.mem_cons, List.not_mem_nil, or_false] at hphase
  refine framed_channel_of_phase (.inr ?_) (.inr ?_) <;> obtain h | h | h | h := hphase <;> rw [h] <;> decide

/-- The slot and the idle pattern of a channel that carries, whether or not a carrier loss is taken first. -/
theorem framed_fields_of_fibre (h : s.routesFollow) (hfibre : (s.channel c).pending.inn = .fibre) :
    ((s.framed o).channel c).slot = (s.channel c).slot ∧ ((s.framed o).channel c).idle = (s.channel c).idle := by
  obtain ⟨hlost, hkept⟩ := framed_channel_of_fibre (o := o) h hfibre
  by_cases hl : s.losesFirst o
  · rw [hlost hl, ChannelRecord.lost_slot, ChannelRecord.lost_idle]
    exact ⟨rfl, rfl⟩
  · rw [hkept hl]
    exact ⟨rfl, rfl⟩

theorem framed_register {idle : Pattern} (h : s.channelsInOrder) (hfibre : (s.channel c).pending.inn = .fibre)
    (hidle : (s.channel c).idle = some idle) (hguard : ((s.register c).getD (FibreRegister.start idle)).guardEnding = false) :
    (s.framed o).register c = some { (s.register c).getD (FibreRegister.start idle) with
      guardEnding := decide (c ∈ s.guardsOver) } := by
  have hregister : (s.framed o).register c = s.countAll.register c := by
    unfold register
    rw [framed_registers]
  have hidle' : s.countAll.idleOf c = idle := idleOf_of_some (by rw [countAll_channel]; exact hidle)
  rw [hregister, countAll_register h, if_pos hfibre, hidle']
  dsimp only
  rw [hguard, Bool.false_or]

theorem framed_register_none (h : s.channelsInOrder) (hfibre : (s.channel c).pending.inn ≠ .fibre) :
    (s.framed o).register c = none := by
  have hregister : (s.framed o).register c = s.countAll.register c := by
    unfold register
    rw [framed_registers]
  rw [hregister, countAll_register h, if_neg hfibre]

theorem mem_guardsOver_iff (h : s.contextsNamed) : c ∈ s.guardsOver ↔ ∃ k x, (s.channel c).context = some k ∧
    s.context k = some x ∧ (s.channel c).phase = .carried ∧ x.guardRemaining = 1 := by
  refine ⟨fun hc => ?_, fun ⟨k, x, hk, hx, hphase, hguard⟩ => ?_⟩
  · obtain ⟨⟨k, x⟩, hmem, hx⟩ := List.mem_filterMap.mp hc
    dsimp only at hx
    split at hx
    next hcase =>
      obtain rfl := Option.some.inj hx
      have hfind : s.context k = some x := Assoc.find_of_mem h.1 hmem
      exact ⟨k, x, (h.2 x.owner k).mpr ⟨x, hfind, rfl⟩, hfind, hcase⟩
    next => cases hx
  · obtain ⟨x', hx', howner⟩ := (h.2 c k).mp hk
    obtain rfl := Option.some.inj (hx.symm.trans hx')
    rw [← howner] at hphase ⊢
    exact mem_guardsOver hx hphase hguard

/-- The context of a carried channel when the walk begins. -/
theorem framed_context_of_carried {k : CtxNo} {x : Context} (hnamed : s.contextsNamed) (hlost : ¬ s.losesFirst o)
    (hk : (s.channel c).context = some k) (hx : s.context k = some x) (hphase : (s.channel c).phase = .carried) :
    (s.framed o).context k = some (s.ticked.contextStep x) := by
  have howner : x.owner = c := by
    obtain ⟨x', hx', howner⟩ := (hnamed.2 c k).mp hk
    rw [Option.some.inj (hx.symm.trans hx')]
    exact howner
  have hassign := afterAssign_context (o := o) hx
  rw [framed_context]
  obtain hsame | ⟨-, d, hjoining, hd⟩ := (noticed_beforeFrame s o).context k
  · rw [hsame, afterLoss_of_not hlost, hassign]
  · have hdc : d = c := (owner_afterLoss (o := o) hnamed hx hd).trans howner
    rw [hdc, afterLoss_channel_of_not hlost (.inr (by rw [hphase]; decide))] at hjoining
    exact absurd (hphase.symm.trans hjoining) Phase.noConfusion

/-- No other channel names the context that a channel has when the walk begins. -/
theorem framed_namedAlone {k : CtxNo} {x : Context} (hnamed : s.contextsNamed) (hk : (s.channel c).context = some k)
    (hx : s.context k = some x) : (s.framed o).NamedAlone c (some k) := by
  intro d j hd hj hcontext
  cases hj
  rw [framed_channel] at hcontext
  obtain ⟨x', hx', howner⟩ := (hnamed.2 c k).mp hk
  obtain rfl := Option.some.inj (hx.symm.trans hx')
  exact hd ((owner_beforeFrame hnamed hx hcontext).trans howner)

theorem runningBoundary_due_of_carry {d : Due} (h : d ∈ (s.framed o).carryAll.due) : d ∈ (s.runningBoundary o).due := by
  rw [runningBoundary_due]
  simp only [List.mem_append, h, true_or, or_true]

end

end State

end Sys2Proof.Machine
end

section
/-! SUPPORT. Routes and fibre words at a boundary in RUNNING (R25, R113, R115 to R117, R119 to R121): the statement. -/

namespace Sys2Proof.Machine

theorem ChannelRecord.lost_context_of_carried {r : ChannelRecord} (h : r.phase = .carried) : r.lost.context = none := by
  unfold lost
  rw [h]

namespace State

section
variable {s : State} {o : BoundaryOrder} {c : Channel}

/-- Every pending route becomes the active route (R25). -/
theorem runningBoundary_active (h : s.routesFollow) (c : Channel) :
    ((s.runningBoundary o).channel c).active = (s.channel c).pending := by
  have hactive : ((s.beforeFrame o).channel c).active = (s.channel c).pending :=
    ((noticed_beforeFrame s o).record c).active_eq.trans (afterLoss_active c)
  have hcarry := runningBoundary_channel s o c
  generalize (s.runningBoundary o).channel c = r at hcarry ⊢
  generalize hbefore : (s.beforeFrame o).channel c = b at hactive hcarry
  cases hcarry with
  | kept => exact hactive
  | collapses k hphase =>
    rw [← hbefore] at hphase
    exact (pending_of_carried h (carried_beforeFrame hphase).2.1).symm

/-- A channel whose IN is not FIBRE (R25, R115). -/
theorem boundary_not_fibre (horder : s.channelsInOrder)
    (hfibre : (s.channel c).pending.inn ≠ .fibre) : (s.runningBoundary o).register c = none ∧
    (o.assignFirst = false ∨ (s.channel c).phase ∉ [.enrolled, .fallen] →
      o.noticeFirst = false ∨ (s.channel c).phase ≠ .joining →
      ¬ s.losesFirst o ∨ (s.channel c).phase ∉ [.proven, .cutting, .carried, .retired] →
      (s.runningBoundary o).channel c = (s.channel c).latchRoute) := by
  have hregister := framed_register_none (o := o) horder hfibre
  have hkeys : c ∉ Assoc.keys (s.framed o).bi.registers := by
    intro hmem
    rw [Assoc.keys_eq_map] at hmem
    obtain ⟨⟨d, y⟩, hp, hd⟩ := List.mem_map.mp hmem
    obtain rfl : d = c := hd
    have horder' : (Assoc.keys (s.framed o).bi.registers).Pairwise (· < ·) := by
      rw [framed_registers]
      exact countAll_keys horder
    exact Option.some_ne_none y ((Assoc.find_of_mem horder' hp).symm.trans hregister)
  have hwalk := carryAll_elsewhere hkeys
  refine ⟨hwalk.register.trans hregister, fun hassign hnotice hloss => hwalk.record.trans ?_⟩
  have hassign' : o.assignFirst = false ∨ (s.channel c).phase ≠ .enrolled ∧ (s.channel c).phase ≠ .fallen :=
    hassign.imp_right fun h => ⟨fun e => h (by rw [e]; decide), fun e => h (by rw [e]; decide)⟩
  obtain ⟨hlost, hkept⟩ := framed_channel_of_phase hassign' hnotice
  by_cases hl : s.losesFirst o
  · rw [hlost hl]
    exact ChannelRecord.lost_of_phase (r := (s.channel c).latchRoute) (hloss.resolve_left fun h => h hl)
  · exact hkept hl

/-- What a boundary finds at a channel whose IN is FIBRE: its register, its slot and its idle pattern. -/
structure CarriesAt (s : State) (c : Channel) (n : SlotNo) (idle : Pattern) : Prop where
  routes : s.routesFollow
  order : s.channelsInOrder
  named : s.contextsNamed
  fibre : (s.channel c).pending.inn = .fibre
  slotIs : (s.channel c).slot = some n
  idleIs : (s.channel c).idle = some idle
  unended : ((s.register c).getD (FibreRegister.start idle)).guardEnding = false

section
variable {n : SlotNo} {idle : Pattern}

/-- The walk at such a channel. -/
theorem CarriesAt.walk (h : s.CarriesAt c n idle) {named : Option CtxNo} (halone : (s.framed o).NamedAlone c named) :
    ∃ u, Elsewhere c named (s.framed o) u ∧ Elsewhere c named (u.carryStep c) (s.framed o).carryAll := by
  have hkeys : (Assoc.keys (s.framed o).bi.registers).Pairwise (· < ·) := by
    rw [framed_registers]
    exact countAll_keys h.order
  exact carryAll_at (hkeys.imp fun hlt => Fin.ne_of_lt hlt)
    (Assoc.mem_keys_of_find (framed_register h.order h.fibre h.idleIs h.unended)) halone

/-- The channel's guard is not ending: its register is the one it had, or one started. -/
theorem CarriesAt.register (h : s.CarriesAt c n idle) (hguard : c ∉ s.guardsOver) :
    (s.framed o).register c = some ((s.register c).getD (FibreRegister.start idle)) := by
  rw [framed_register h.order h.fibre h.idleIs h.unended, decide_eq_false hguard]
  have hunended := h.unended
  generalize (s.register c).getD (FibreRegister.start idle) = y at hunended ⊢
  exact congrArg (fun b => some { y with guardEnding := b }) hunended.symm

/-- The word of a channel that holds no context when the walk begins (R116). -/
theorem CarriesAt.unowned (h : s.CarriesAt c n idle) (hguard : c ∉ s.guardsOver)
    (hnone : ((s.framed o).channel c).context = none) :
    (s.runningBoundary o).Became c s.sc.params.holdLimit (((s.register c).getD (FibreRegister.start idle)).chosenWith
      (goodArrival (s.slot n).latch) s.sc.params.holdLimit idle none) ∧
    (s.runningBoundary o).channel c = (s.framed o).channel c := by
  obtain ⟨hslot, hidle⟩ := framed_fields_of_fibre (o := o) h.routes h.fibre
  obtain ⟨u, hbefore, hafter⟩ := h.walk (o := o) (named := none) fun _ _ _ hk => nomatch hk
  have hvisible : (u.slot n).visible = (s.slot n).latch :=
    (congrArg SlotEntry.visible (slot_of_slots (congrArg SlotTable.slots hbefore.slots) n)).trans (framed_visible s o n)
  have hparams : u.sc.params = s.sc.params := (congrArg StoreController.params hbefore.params).trans (framed_sc s o)
  obtain ⟨hbecame, hrecord⟩ := carryStep_unowned (u := u) (n := n) (hbefore.register.trans (h.register hguard)) h.unended
    (by rw [hbefore.record]; exact hnone) (by rw [hbefore.record, hslot]; exact h.slotIs)
    (by rw [hbefore.record, hidle]; exact h.idleIs)
  rw [hvisible, hparams] at hbecame
  obtain ⟨hregister, hdue⟩ := hbecame.elsewhere hafter
  exact ⟨⟨hregister, fun hr hs => runningBoundary_due_of_carry (hdue hr hs)⟩,
    hafter.record.trans (hrecord.trans hbefore.record)⟩

/-- The guard of the channel ends at this boundary: the choice is left to GUARD_END (R113). -/
theorem CarriesAt.guardEnds (h : s.CarriesAt c n idle) (hguard : c ∈ s.guardsOver) :
    (s.runningBoundary o).register c = some { (s.register c).getD (FibreRegister.start idle) with guardEnding := true } := by
  obtain ⟨u, hbefore, hafter⟩ := h.walk (o := o) (named := none) fun _ _ _ hk => nomatch hk
  have hregister := framed_register (o := o) h.order h.fibre h.idleIs h.unended
  rw [decide_eq_true hguard, ← hbefore.register] at hregister
  have hstays : u.carryStep c = u := by
    unfold carryStep
    rw [hregister]
    rfl
  rw [hstays] at hafter
  exact hafter.register.trans hregister

/-- A context once its delay line is pushed and its guard counted (R54, R113). -/
def pushedBy (x : Context) (arrived : Option Pattern) : Context :=
  { x with delay := (arrived :: x.delay).take 16, guardRemaining := x.guardRemaining - 1 }

/-- A channel that carries with a context, and no carrier loss is taken first. -/
structure OwnsAt (s : State) (o : BoundaryOrder) (c : Channel) (k : CtxNo) (x : Context) : Prop where
  phase : (s.channel c).phase = .carried
  context : (s.channel c).context = some k
  held : s.context k = some x
  kept : ¬ s.losesFirst o

section
variable {k : CtxNo} {x : Context}

theorem contextStep_of_carries (h : s.CarriesAt c n idle) (hown : s.OwnsAt o c k x) :
    s.ticked.contextStep x = pushedBy x (goodArrival (s.slot n).latch) := by
  have howner : x.owner = c := by
    obtain ⟨x', hx', howner⟩ := (h.named.2 c k).mp hown.context
    rw [Option.some.inj (hown.held.symm.trans hx')]
    exact howner
  obtain rfl := howner
  have hpushed := pushed_ticked s x.owner
  rw [h.slotIs] at hpushed
  dsimp only at hpushed
  rw [contextStep_ticked, hown.phase, hpushed, goodArrival_eq]
  rfl

theorem CarriesAt.guard_not_ending (h : s.CarriesAt c n idle) (hk : (s.channel c).context = some k)
    (hx : s.context k = some x) (hguard : x.guardRemaining ≠ 1) : c ∉ s.guardsOver := by
  rw [mem_guardsOver_iff h.named]
  rintro ⟨k', x', hk', hx', -, hone⟩
  obtain rfl := Option.some.inj (hk.symm.trans hk')
  obtain rfl := Option.some.inj (hx.symm.trans hx')
  exact hguard hone

/-- The state in which the walk reaches the channel, and what it makes of its step. -/
theorem CarriesAt.owned (h : s.CarriesAt c n idle) (hown : s.OwnsAt o c k x) (hguard : x.guardRemaining ≠ 1) :
    ∃ u : State, u.register c = some ((s.register c).getD (FibreRegister.start idle)) ∧
      u.channel c = (s.channel c).latchRoute ∧ u.context k = some (pushedBy x (goodArrival (s.slot n).latch)) ∧
      (u.slot n).visible = (s.slot n).latch ∧ u.sc.params = s.sc.params ∧
      Elsewhere c (some k) (u.carryStep c) (s.framed o).carryAll := by
  obtain ⟨u, hbefore, hafter⟩ := h.walk (framed_namedAlone (o := o) h.named hown.context hown.held)
  refine ⟨u, hbefore.register.trans (h.register (h.guard_not_ending hown.context hown.held hguard)), ?_, ?_, ?_, ?_, hafter⟩
  · rw [hbefore.record]
    exact (framed_channel_of_fibre h.routes h.fibre).2 hown.kept
  · rw [hbefore.context k rfl, framed_context_of_carried h.named hown.kept hown.context hown.held hown.phase,
      contextStep_of_carries h hown]
  · exact (congrArg SlotEntry.visible (slot_of_slots (congrArg SlotTable.slots hbefore.slots) n)).trans (framed_visible s o n)
  · exact (congrArg StoreController.params hbefore.params).trans (framed_sc s o)

/-- The quiet test of the channel at the boundary (R120). -/
def quietAt (s : State) (c : Channel) (x : Context) (y : FibreRegister) (idle : Pattern) : Prop :=
  (s.channel c).lag = 0 ∨ (x.window.filter id).length ≤ s.sc.params.quietLimit ∨
    y.carriedWord.extractLsb' 8 4 = idle.extractLsb' 8 4

theorem quiet_iff_quietAt {u : State} {y : FibreRegister} {a : Option Pattern}
    (hu : u.channel c = (s.channel c).latchRoute) (hparams : u.sc.params = s.sc.params)
    (hidle : (s.channel c).idle = some idle) : u.quiet c (pushedBy x a) y = true ↔ s.quietAt c x y idle := by
  rw [quiet_iff (by rw [hu]; exact hidle), hparams, hu]
  rfl

/-- The word of the channel while its guard remains, or while it is not quiet (R113, R116, R119). -/
theorem CarriesAt.watched (h : s.CarriesAt c n idle) (hown : s.OwnsAt o c k x) {held : Option Pattern}
    (hcase : (1 < x.guardRemaining ∧ ∃ last, x.lastCopper = some last ∧ held = some last) ∨
      x.guardRemaining = 0 ∧ held = none ∧
        ¬ s.quietAt c x ((s.register c).getD (FibreRegister.start idle)) idle) :
    let x' := pushedBy x (goodArrival (s.slot n).latch)
    let z := ((s.register c).getD (FibreRegister.start idle)).chosenWith (x'.delay.getD (s.channel c).lag.val none)
      s.sc.params.holdLimit idle held
    (s.runningBoundary o).Became c s.sc.params.holdLimit z ∧
    (s.runningBoundary o).context k = some (x'.mark z.carriedWord) ∧
    (s.runningBoundary o).channel c = (s.channel c).latchRoute := by
  intro x' z
  have hguard : x.guardRemaining ≠ 1 := by
    obtain ⟨hmore, -⟩ | ⟨hzero, -⟩ := hcase <;> omega
  obtain ⟨u, hregister, hrecord, hcontext, -, hparams, hafter⟩ := h.owned hown hguard
  have hphase : (u.channel c).phase = .carried := by rw [hrecord]; exact hown.phase
  have hnamed : (u.channel c).context = some k := by rw [hrecord]; exact hown.context
  have hidle : (u.channel c).idle = some idle := by rw [hrecord]; exact h.idleIs
  obtain ⟨hnot, hheld⟩ : ¬ (x'.guardRemaining = 0 ∧ u.quiet c x' ((s.register c).getD (FibreRegister.start idle)) = true) ∧
      ∀ w, u.guardedWord c w = heldOver held w := by
    obtain ⟨hmore, last, hlast, rfl⟩ | ⟨hzero, rfl, hquiet⟩ := hcase
    · have hleft : 0 < x'.guardRemaining := Nat.sub_pos_of_lt hmore
      refine ⟨fun hover => absurd hover.1 (Nat.pos_iff_ne_zero.mp hleft), fun w => ?_⟩
      exact (guardedWord_carried (x := x') w hphase hnamed hcontext hlast).trans (if_pos hleft)
    · have hover : x'.guardRemaining = 0 := by
        show x.guardRemaining - 1 = 0
        rw [hzero]
      exact ⟨fun hq => hquiet ((quiet_iff_quietAt hrecord hparams h.idleIs).mp hq.2),
        fun w => guardedWord_guard_over w hnamed hcontext hover⟩
  obtain ⟨hbecame, hmarked, hsame⟩ := carryStep_watched hregister h.unended hphase hnamed hcontext hidle hnot hheld
  rw [hparams] at hbecame hmarked
  rw [hrecord] at hbecame hmarked hsame
  obtain ⟨hz, hdue⟩ := hbecame.elsewhere hafter
  exact ⟨⟨hz, fun hr hs => runningBoundary_due_of_carry (hdue hr hs)⟩, (hafter.context k rfl).trans hmarked,
    hafter.record.trans hsame⟩

/-- The collapse of the channel once it is quiet (R36, R121). -/
theorem CarriesAt.collapses (h : s.CarriesAt c n idle) (hown : s.OwnsAt o c k x) (hguard : x.guardRemaining = 0)
    (hquiet : s.quietAt c x ((s.register c).getD (FibreRegister.start idle)) idle) :
    (s.runningBoundary o).Became c s.sc.params.holdLimit (((s.register c).getD (FibreRegister.start idle)).chosenWith
      (goodArrival (s.slot n).latch) s.sc.params.holdLimit idle none) ∧
    (s.runningBoundary o).context k = none ∧
    (s.runningBoundary o).channel c = (s.channel c).latchRoute.collapses ∧
    (s.runningBoundary o).du.shows ⟨.collapsed, c⟩ := by
  obtain ⟨u, hregister, hrecord, hcontext, hvisible, hparams, hafter⟩ := h.owned hown (by omega)
  have hgone : u.GoneQuiet c k := by
    refine ⟨by rw [hrecord]; exact hown.phase, by rw [hrecord]; exact hown.context, _, _, hcontext, hregister, ?_,
      (quiet_iff_quietAt hrecord hparams h.idleIs).mpr hquiet⟩
    show x.guardRemaining - 1 = 0
    rw [hguard]
  obtain ⟨hbecame, hfreed, hcollapsed, hshows⟩ := carryStep_collapsed (n := n) hregister h.unended hgone
    (by rw [hrecord]; exact h.slotIs) (by rw [hrecord]; exact h.idleIs)
  rw [hparams, hvisible] at hbecame
  rw [hrecord] at hcollapsed
  obtain ⟨hz, hdue⟩ := hbecame.elsewhere hafter
  exact ⟨⟨hz, fun hr hs => runningBoundary_due_of_carry (hdue hr hs)⟩, (hafter.context k rfl).trans hfreed,
    hafter.record.trans hcollapsed, hafter.shows _ hshows⟩

end

end

end

end State

/-- Settles O15: a channel whose IN is not FIBRE by `boundary_not_fibre`, one that carries by the cases of `CarriesAt`. -/
theorem pendingRoutesBecomeActiveAtTheBoundary : Obligations.PendingRoutesBecomeActiveAtTheBoundary := by
  intro i o s hsteady hsending hroutes hboundary
  obtain ⟨τ, f, hf, hexec, -, hshows⟩ := State.exec_steady_finish hsteady hsending hboundary
  let u := s.timerAt τ
  let T := u.runningBoundary o
  have hchannel (c : Channel) : (f T).channel c = T.channel c :=
    State.finish_keeps hf (fun v => v.channel c) (fun _ _ _ => rfl) T
  have hcontext (k : CtxNo) : (f T).context k = T.context k :=
    State.finish_keeps hf (fun v => v.context k) (fun _ _ _ => rfl) T
  have hregister (c : Channel) : (f T).register c = T.register c :=
    State.finish_keeps hf (fun v => v.register c) (fun _ _ _ => rfl) T
  have hdue : (f T).due = T.due := State.finish_keeps hf State.due (fun _ _ _ => rfl) T
  refine ⟨f T, hexec, fun c => ?_, fun horder hconsistent c => ?_⟩
  · rw [hchannel]
    exact State.runningBoundary_active (s := u) hroutes c
  · obtain ⟨hfields, hnamed, -⟩ := hconsistent
    intro r lost
    refine ⟨fun hfibre => ?_, fun n idle hfibre hslot hidle => ?_⟩
    · rw [hchannel, hregister]
      exact State.boundary_not_fibre (s := u) horder hfibre
    · intro y arrived chosen became hunended
      have hcarries : u.CarriesAt c n idle := ⟨hroutes, horder, hnamed, hfibre, hslot, hidle, hunended⟩
      have hfull (hl : ¬ lost) : (u.framed o).channel c = { r with active := r.pending } :=
        (State.framed_channel_of_fibre (s := u) hroutes hfibre).2 hl
      have harrived : goodArrival (u.slot n).latch = arrived := goodArrival_eq _
      have hchosen (source held : Option Pattern) :
          y.chosenWith source s.sc.params.holdLimit idle held = chosen source held := by
        cases source <;> cases held <;> rfl
      have hbecame {source held : Option Pattern}
          (h : T.Became c s.sc.params.holdLimit (y.chosenWith source s.sc.params.holdLimit idle held)) :
          became (chosen source held) := by
        rw [← hchosen]
        exact ⟨(hregister c).trans h.1, fun hr hs => hdue ▸ h.2 hr hs⟩
      have hunowned (hguard : c ∉ u.guardsOver) (hnone : ((u.framed o).channel c).context = none) :
          became (chosen arrived none) ∧ T.channel c = (u.framed o).channel c := by
        obtain ⟨hz, hsame⟩ := hcarries.unowned hguard hnone
        rw [← harrived]
        exact ⟨hbecame hz, hsame⟩
      refine ⟨fun hnone => ?_, fun k x hk hx => ?_⟩
      · have hguard : c ∉ u.guardsOver := by
          rw [State.mem_guardsOver_iff (s := u) hnamed]
          rintro ⟨k, x, hk, -⟩
          exact Option.some_ne_none k (hk.symm.trans hnone)
        by_cases hl : lost
        · have hnone' : ((u.framed o).channel c).context = none := by
            rw [(State.framed_channel_of_fibre (s := u) hroutes hfibre).1 hl]
            exact Option.eq_none_iff_forall_ne_some.mpr fun k hk =>
              Option.some_ne_none k ((State.lost_context_of_some hk).symm.trans hnone)
          exact ⟨(hunowned hguard hnone').1, .inl hl⟩
        · obtain ⟨hz, hsame⟩ := hunowned hguard (by rw [hfull hl]; exact hnone)
          exact ⟨hz, .inr ((hchannel c).trans (hsame.trans (hfull hl)))⟩
      · intro delay quiet marked
        have hphase : r.phase = .carried := by
          have hphases := State.phase_of_fibre hroutes hfibre
          obtain hproving | ⟨hcarried, -⟩ := (hfields c).1.mp (by rw [hk]; exact Option.some_ne_none k)
          · simp only [List.mem_cons, List.not_mem_nil, or_false] at hphases hproving
            obtain h | h | h | h := hproving <;> rw [h] at hphases <;> simp at hphases
          · exact hcarried
        have hword (source held : Option Pattern) :
            some ((State.pushedBy x arrived).mark (y.chosenWith source s.sc.params.holdLimit idle held).carriedWord) =
              some (marked (chosen source held).carriedWord) := by
          rw [hchosen]
          rfl
        have howns (hl : ¬ lost) : u.OwnsAt o c k x := ⟨hphase, hk, hx, hl⟩
        refine ⟨fun hone => ?_, fun hnot hl => ?_, fun last hmore hl hlast => ?_, fun hzero hl hq => ?_, fun hzero hl hq => ?_⟩
        · have hguard : c ∈ u.guardsOver := (State.mem_guardsOver_iff (s := u) hnamed).mpr ⟨k, x, hk, hx, hphase, hone⟩
          exact ⟨(hregister c).trans (hcarries.guardEnds hguard), hdue ▸ State.mem_due_of_guards hguard⟩
        · refine (hunowned (hcarries.guard_not_ending hk hx hnot) ?_).1
          rw [(State.framed_channel_of_fibre (s := u) hroutes hfibre).1 hl]
          exact ChannelRecord.lost_context_of_carried (r := (u.channel c).latchRoute) hphase
        · obtain ⟨hz, hmarked, hsame⟩ := hcarries.watched (howns hl) (.inl ⟨hmore, last, hlast, rfl⟩)
          rw [harrived] at hz hmarked
          exact ⟨hbecame hz, (hcontext k).trans (hmarked.trans (hword _ _)), (hchannel c).trans hsame⟩
        · obtain ⟨hz, hmarked, hsame⟩ := hcarries.watched (howns hl) (.inr ⟨hzero, rfl, hq⟩)
          rw [harrived] at hz hmarked
          exact ⟨hbecame hz, (hcontext k).trans (hmarked.trans (hword _ _)), (hchannel c).trans hsame⟩
        · obtain ⟨hz, hfreed, hcollapsed, hshown⟩ := hcarries.collapses (howns hl) hzero hq
          rw [harrived] at hz
          exact ⟨hbecame hz, (hcontext k).trans hfreed, (hchannel c).trans hcollapsed, hshows T _ hshown⟩

end Sys2Proof.Machine
end

section
/-! SUPPORT. A step need not keep the retirement store in agreement with the channel map: REINSTATEMENT_RETRY starts any
paused write again in PROGRAM, a TARGET one too, and the statement lets a TARGET write pause. -/

namespace Sys2Proof.Machine

/-- Channel 5 in RECALLING, with slot 7. -/
def recallingRecord : ChannelRecord :=
  { ChannelRecord.reset with
    phase := .recalling, label := some 9, idle := some 0, slot := some 7, collapsed := true, origin := some .retired,
    pending := Phase.recalling.route, active := Phase.recalling.route }

/-- Slot 7, held by channel 5. -/
def recallingSlot : SlotEntry := { SlotEntry.reset with state := .held, channel := some 5 }

/-- The write of channel 5's void record. -/
def voidRequest : WriteRequest := ⟨.void, 5, 7, 9, 0⟩

/-- RUNNING, with channel 5 in RECALLING, nothing programmed in the store, and the write of its void record at a stage
as a TARGET write. -/
def voidWriteAt (stage : Stage) : State :=
  { State.reset with
    part := .running
    cm := [(5, recallingRecord)]
    sn := { State.reset.sn with slots := [(7, recallingSlot)] }
    sc := { StoreController.reset with flight := some ⟨voidRequest, .target, stage⟩, loader := .done } }

/-- The write paused with its pause over, its REINSTATEMENT_RETRY due and next. -/
def pausedVoid : State :=
  { voidWriteAt (.pause 0) with due := [.reinstatementRetry], pending := [.reinstatementRetry] }

theorem channel_pausedVoid (c : Channel) :
    pausedVoid.channel c = if (5 : Channel) = c then recallingRecord else .reset := by
  unfold State.channel
  simp only [pausedVoid, voidWriteAt, Assoc.find]
  split <;> rfl

theorem slot_pausedVoid (n : SlotNo) : pausedVoid.slot n = if (7 : SlotNo) = n then recallingSlot else .reset := by
  unfold State.slot
  simp only [pausedVoid, voidWriteAt, Assoc.find]
  split <;> rfl

theorem step_pausedVoid : step pausedVoid = .next (voidWriteAt .program) := rfl

theorem fieldsByPhase_pausedVoid : pausedVoid.fieldsByPhase := by
  intro c
  dsimp only
  rw [channel_pausedVoid]
  split <;> simp [ChannelRecord.holdsContext, recallingRecord, ChannelRecord.reset]

theorem contextsNamed_pausedVoid : pausedVoid.contextsNamed := by
  refine ⟨List.Pairwise.nil, fun c k => ?_⟩
  have hfree : pausedVoid.context k = none := rfl
  have hnone : (pausedVoid.channel c).context = none := by
    rw [channel_pausedVoid]
    split <;> rfl
  simp [hfree, hnone]

theorem proofQueueExact_pausedVoid : pausedVoid.proofQueueExact := by
  refine ⟨List.nodup_nil, fun c => ?_⟩
  rw [channel_pausedVoid]
  split <;> simp [pausedVoid, voidWriteAt, State.reset, recallingRecord, ChannelRecord.reset]

theorem slotsNamed_pausedVoid : pausedVoid.slotsNamed := by
  have hnone : pausedVoid.sn.outstanding = none := rfl
  refine ⟨fun c n => ?_, fun n => ?_, fun n => ?_, fun n => ?_⟩
  · rw [channel_pausedVoid, slot_pausedVoid]
    by_cases hc : (5 : Channel) = c <;> by_cases hn : (7 : SlotNo) = n <;>
      simp [hc, hn, recallingRecord, recallingSlot, ChannelRecord.reset, SlotEntry.reset, SlotEntry.inUse]
  all_goals
    rw [slot_pausedVoid]
    split <;> simp [hnone, recallingSlot, SlotEntry.reset, SlotEntry.inUse]

theorem consistent_pausedVoid : pausedVoid.consistent := by
  have hrequests : pausedVoid.requests = [] := rfl
  have hdue : pausedVoid.due = [.reinstatementRetry] := rfl
  have hsingle : pausedVoid.requestsSingle :=
    ⟨by simp [hrequests], by simp [hrequests], fun o ho => by cases ho⟩
  have hschedules : pausedVoid.schedulesSingle := ⟨List.Pairwise.nil, fun c x hx => by cases hx⟩
  have hagrees : pausedVoid.dueAgrees := ⟨by simp [hdue], by simp [hdue]⟩
  have hload : pausedVoid.loadAgrees := by
    refine ⟨fun h => absurd rfl h, fun h => ?_, fun h => ?_⟩ <;> cases h
  exact ⟨fieldsByPhase_pausedVoid, contextsNamed_pausedVoid, proofQueueExact_pausedVoid, slotsNamed_pausedVoid,
    hsingle, hschedules, hagrees, hload⟩

/-- The stage PAUSE counts as begun, so nothing is asked of the store for channel 5. -/
theorem recorded_pausedVoid : pausedVoid.recorded := by
  have hbegun : pausedVoid.writeBegun 5 := ⟨_, rfl, rfl, fun h => by cases h.2⟩
  have hwrites : pausedVoid.writes = [voidRequest] := rfl
  have hretired : pausedVoid.retiredRecorded := by
    intro c n _
    rw [channel_pausedVoid]
    split
    next hc => subst hc; simp [recallingRecord, hbegun]
    next => simp [ChannelRecord.reset]
  have hsingle : pausedVoid.writesSingle := by
    refine ⟨by simp [hwrites], ?_⟩
    rw [hwrites]
    intro r hr
    rw [List.mem_singleton.1 hr]
    exact ⟨rfl, rfl⟩
  have hpage : pausedVoid.pageInFlight := ⟨fun n bytes h => (by cases h), fun h => absurd rfl h⟩
  exact ⟨hretired, hsingle, hpage⟩

/-- In PROGRAM the write has not begun, and the store has no RETIRED record of channel 5. -/
theorem not_recorded_voidWriteAt_program : ¬ (voidWriteAt .program).recorded := by
  intro ⟨hretired, _, _⟩
  have hidle : ¬ (voidWriteAt .program).writeBegun 5 := by
    rintro ⟨f, hf, _, hbegun⟩
    cases hf
    exact hbegun ⟨rfl, rfl⟩
  obtain ⟨hstate, _, _⟩ := hretired 5 7 rfl (.inr (.inr ⟨rfl, hidle⟩))
  exact absurd hstate (by decide)

/-- Refutes O59: in `pausedVoid` the blocks are consistent and recorded, and its REINSTATEMENT_RETRY leaves channel 5 in
RECALLING, before the page write of its void record, with no RETIRED record in the store. A TARGET write never pauses in a
run (R148), but neither `consistent` nor `recorded` says so. -/
theorem not_everyStepKeepsTheBlocksConsistent : ¬ Obligations.EveryStepKeepsTheBlocksConsistent := by
  unfold Obligations.EveryStepKeepsTheBlocksConsistent
  intro keeps
  obtain ⟨_, _, hrecorded⟩ := keeps pausedVoid (voidWriteAt .program) (List.pairwise_singleton _ _)
    (List.pairwise_singleton _ _) consistent_pausedVoid step_pausedVoid
  exact not_recorded_voidWriteAt_program (hrecorded recorded_pausedVoid)

end Sys2Proof.Machine
end
